-- ==== Sys2Proof/Word.lean ====
section
/-! DEFINITION. The widths of the block (Table S-1 of rule R5) and the plainest operations on them:
concatenation with the more significant part on the left and the two bytes of a word (rule R6). Every
value of the block is an unsigned bit vector. -/

namespace Sys2Proof

/-- A byte: the unit of both buffers and of every frame (rule R5, rule R6). -/
abbrev Byte := BitVec 8

/-- A 16-bit value: a register address, a parameter, a data word, the operand `ARG` (rule R5, rule R19). -/
abbrev Word := BitVec 16

/-- The 32 bits of a float view (rule R12). -/
abbrev Float32Bits := BitVec 32

end Sys2Proof
end

