-- ==== Sys2Proof/Config.lean ====
section
/-! DEFINITION. The sizes that Table S-1 of rule R5 fixes. The block has no implementation parameter
left open ("none is left as a model argument", rule R5) and no result the spec leaves undefined, so there is
no free value here. The checksum's parameters stand with the checksum (Machine/Crc.lean), the register map and the
op-select codes with the decoder (Decode.lean). -/

namespace Sys2Proof.Config

/-- Bytes of the transmit buffer `TX` (rule R5, rule R30). -/
def txSize : Nat := 5

/-- Bytes of the receive buffer `RX`, the longest response (rule R5, rule R30). -/
def rxSize : Nat := 18

/-- Bytes of one checksum group: data-high, data-low, checksum (rule R5, rule R32). -/
def groupSize : Nat := 3

end Sys2Proof.Config
end

