-- ==== Sys2Proof/Syntax.lean ====
section
/-! DEFINITION. The operations of the block: one constructor per row of spec/opcode_table.json, which are the
19 rows of Table E-4 (rule R47, rule R50). An operation that takes an operand carries all 16 bits of `ARG`,
in range or not, because the range test belongs to the operation itself (rule R79, rule R81); an operation
that ignores `ARG` carries nothing (rule R19). -/

namespace Sys2Proof

/-- The 19 operations (Table E-4 of rule R47). -/
inductive Instr where
  /-- `CLR`: everything to its reset value (rule R125). -/
  | clr
  /-- `CRC8`: checksum of the two bytes of `ARG` (rule R67). -/
  | crc8 (arg : Word)
  /-- `CHK`: validate group `g` of the receive buffer (rule R68). -/
  | chk (g : Word)
  /-- `DEC3`: decode a one-group response (rule R101). -/
  | dec3
  /-- `DEC6`: decode one float pair (rule R102). -/
  | dec6
  /-- `DEC18`: decode the measurement response (rule R103). -/
  | dec18
  /-- `RDFW`: build "Read firmware version" (rule R76). -/
  | rdfw
  /-- `SRST`: build "Soft reset" (rule R77). -/
  | srst
  /-- `RDINT`: build the read form of the measurement interval (rule R78). -/
  | rdint
  /-- `WRINT`: build the write form of the measurement interval (rule R79). -/
  | wrint (sec : Word)
  /-- `RDASC`: build the read form of auto-self-calibration (rule R80). -/
  | rdasc
  /-- `WRASC`: build the write form of auto-self-calibration (rule R81). -/
  | wrasc (en : Word)
  /-- `RDFRC`: build the read form of forced recalibration (rule R82). -/
  | rdfrc
  /-- `WRFRC`: build the write form of forced recalibration (rule R83). -/
  | wrfrc (v : Word)
  /-- `RDTOFF`: build "Read temp offset" (rule R84). -/
  | rdtoff
  /-- `STARTC`: build "Start continuous measurement / write pressure comp" (rule R85). -/
  | startc (p : Word)
  /-- `RDRDY`: build "Read data-ready" (rule R86). -/
  | rdrdy
  /-- `STOPM`: build "Stop measurement" (rule R87). -/
  | stopm
  /-- `RDMEAS`: build "Read measurement" (rule R88). -/
  | rdmeas
  deriving DecidableEq, Repr

/-- `WRPRESS p` is another spelling of `STARTC p`: same code, same frame (rule R54, rule R89). -/
abbrev Instr.wrpress (p : Word) : Instr := .startc p

end Sys2Proof
end

