-- ==== Sys2Proof/Machine/State.lean ====
section
/-! DEFINITION. The state: the eight items of Table ST-1 (rule R10) and, beside them, two fields of the host, which are
the model's own: the list of host actions still to be performed (assumption 3), because the block has no program
counter and no program (rule R20) and what it does next is the next element of the host's action list (rule R9); and the
host's records of its own doing (assumption 8), by which the breaches of rule R153 are told. Also the actions a host can
perform and the reasons a step can stop. -/

namespace Sys2Proof.Machine

/-- A byte buffer as (offset, byte) pairs in one canonical form (`Memory.wf` in Machine/Ops.lean): offsets strictly
rising, no entry equal to what an unlisted offset reads as. Rule R30: the buffers are `TX` and `RX`, the byte
is their unit. -/
abbrev Memory := List Host.Cell

/-- What an unlisted offset reads as: 0x00, the reset contents of both buffers (rule R23; assumption 10). -/
def Memory.unlisted : Byte := 0

/-- What a host can read: the items of Table ST-1 one by one, the float views (rule R12) and the named views of
`W[0]` (rule R13). -/
inductive HostReg where
  | status
  /-- The flag `MATCH` of `STATUS`, used as the outcome of a `CHK`. -/
  | matched
  | crc
  | txLen
  | expLen
  | rxLen
  | w (g : Fin 6)
  | tx (i : Fin 5)
  | rx (i : Fin 18)
  | f (j : Fin 3)
  | major
  | minor
  | ready
  deriving DecidableEq, Repr

/-- A host action. `issue`, `loadRx`, `reset` and `read` are all that acts on the block (rule R9, rule R151, rule R158).
`connect`, `send`, `receive` and `disconnect` are the transport interface as the host connects it to the block (rule
R41), and `consume` is the use of an output, which rule R153 distinguishes from a mere read (assumption 5). -/
inductive HostAction where
  /-- `ISSUE(opsel, arg)`: perform the operation `opsel` selects (rule R9, rule R19, rule R47). -/
  | issue (opsel : Byte) (arg : Word)
  /-- `LOADRX(bs)`: load the receive buffer (rule R18). -/
  | loadRx (bs : List Byte)
  /-- The block's reset input (rule R151). -/
  | reset
  /-- A read of any state, which changes nothing (rule R9, rule R35). -/
  | read (r : HostReg)
  /-- `open(bus, address)` with its outcome, a handle or a failure (rule R41). From its first `connect` on the host is bound
  by rule R153 (c), (d) (assumption 8). -/
  | connect (succeeds : Bool)
  /-- `write(handle, TX[0..TXLEN-1])` with its outcome, ok or a failure (rule R16, rule R41). -/
  | send (succeeds : Bool)
  /-- `read(handle, EXPLEN)` with its outcome, exactly `EXPLEN` bytes or a failure (rule R41). -/
  | receive (answer : Option (List Byte))
  /-- `close(handle)` (rule R41). -/
  | disconnect
  /-- The host uses an output of the block, a result as the answer to `command` (rule R105, rule R153 (e), (f)). -/
  | consume (r : HostReg) (command : Instr)
  deriving DecidableEq, Repr

/-! ## The records of the host -/

/-- What became of the frame in `TX`, and of the exchange it belongs to (rule R41, rule R153 (c), U10). -/
inductive FrameUse where
  /-- There is no frame: `TXLEN = 0`. -/
  | absent
  /-- A frame that the transport has not been given yet. -/
  | untaken
  /-- A frame that was written; if a response is due, its read is still to come. -/
  | sent
  /-- A frame that was given to the transport, and no more is to come of it: its read was made, the session was closed, or
  its write failed and bytes were loaded since (assumption 8). -/
  | finished
  /-- The write of the frame failed, a `TransportError`, and nothing was loaded since. -/
  | writeFailed
  /-- The read of its response failed, a `TransportError`. -/
  | readFailed
  deriving DecidableEq, Repr

/-- What the last successful transport read gave (rule R41, rule R153 (d)); that a read failed is in `FrameUse.readFailed`. -/
inductive Reply where
  /-- There was none yet. -/
  | pending
  /-- The read gave these bytes, as the answer to this command, if it is still in question. -/
  | received (command : Option Instr) (bytes : List Byte)
  deriving DecidableEq, Repr

/-- The transport session (rule R41). -/
inductive Transport where
  /-- The host has never called `open`: it drives the block alone, as the vectors of spec/95_test_vectors.md do. -/
  | unused
  /-- No session is open: the call of `open` failed, or the session was closed. -/
  | closed
  /-- A session is open: there is a handle. -/
  | opened
  deriving DecidableEq, Repr

/-- What an operation leaves for the host to use (rule R153 (f)). -/
inductive Output where
  /-- `TX`, `TXLEN`, `EXPLEN`, left by the encode operations. -/
  | frame
  /-- `W` and its views, left by the decode operations. -/
  | result
  /-- `MATCH`, left by `CHK`. -/
  | comparison
  deriving DecidableEq, Repr

/-- What the host knows of its own doing. The block "does not remember which command a response answers" (rule R13); the
host carries it "in the host's own state" (U6). The records are kept whether or not a session is open. -/
structure Records where
  /-- The transport session. -/
  transport : Transport
  /-- What became of the frame in `TX`. -/
  frame : FrameUse
  /-- What the last successful transport read gave. -/
  reply : Reply
  /-- `RX` holds bytes that may be decoded (rule R153 (d), rule R102). -/
  decodable : Bool
  /-- The command in question that the bytes in `RX` answer, if they answer one. -/
  loaded : Option Instr
  /-- The command in question that the result of the last decode answers, if it answers one. -/
  result : Option Instr
  /-- What the most recent operation left, whose error code `STATUS.ERR` holds (rule R137). -/
  last : Option Output
  /-- The outputs of operations that can raise, whose error code was not read (rule R142, rule R153 (f)). -/
  unchecked : List Output
  deriving DecidableEq, Repr

/-- A host that has done nothing yet. -/
def Records.initial : Records where
  transport := .unused
  frame := .absent
  reply := .pending
  decodable := false
  loaded := none
  result := none
  last := none
  unchecked := []

/-- Why a run stops with a fault. The block itself raises none of these: its own errors are recorded in
`STATUS.ERR` and the run goes on (rule R136, rule R143). All but the first are faults of the host: "A model treats
... a breach of (c) to (f) as a fault of the host" (rule R153). Each is safe: the model stops. -/
inductive Fault where
  /-- `MemRead` or `MemWrite` outside the range where rule R40 defines it. No operation reaches it from a
  state that satisfies rule R25; `CHK` would from a state with `RXLEN` above 18. Safe (assumption 9). -/
  | bufferAccess
  /-- Raised by `consume` of a data word or a view while `VALID = 0` (rule R105, rule R153 (e), U5). Safe. -/
  | resultNotValid
  /-- Raised by `consume` of a view that carries no data after the decode performed: a float view with another `NGRP` than
  rule R121 says, `MAJOR`, `MINOR` or `READY` after another decode than `DEC3` (rule R13). Safe. -/
  | resultNotCarried
  /-- Raised by `consume` of a result that answers another command than the one in question (rule R153 (e), U6). Safe. -/
  | resultOfOtherCommand
  /-- Raised by `send`, and by `consume` of `TX`, while `TXLEN = 0` (rule R16, rule R152, rule R153 (f), U10). Safe. -/
  | emptyFrame
  /-- Raised by `send` of a frame that was given to the transport already (U10, rule R41; assumption 13). Safe. -/
  | frameSentTwice
  /-- Raised by an encode operation or `CLR` while `TX` holds a frame not yet taken (rule R153 (c)), once the host has
  called `open` (assumption 8). Safe. -/
  | frameNotTaken
  /-- Raised by `LOADRX` of other bytes than those of one successful transport read (rule R153 (d)), but for the 6 bytes
  that rule R102 lets a host load on its own account, once the host has called `open` (assumption 8). Safe. -/
  | loadNotOneReply
  /-- Raised by a decode operation when `RX` does not hold bytes that may be decoded, when their length is another, after
  a failed read, and for an exchange whose write failed (rule R153 (d), rule R41), once the host has called `open`
  (assumption 8). Safe. -/
  | decodeOutOfTurn
  /-- Raised by `send` or `consume` of an output whose operation can raise and whose `ERR` was not read (rule R153
  (f)). Safe. -/
  | errorNotChecked
  /-- Raised by `receive` when no response is due: no command was sent that has one (rule R17), or its read was made
  already (rule R41; assumption 13). Safe. -/
  | noReplyExpected
  /-- Raised by `send`, `receive` and `disconnect` while no session is open: there is no handle (rule R41). Safe. -/
  | notConnected
  deriving DecidableEq, Repr

/-- Why a step is refused. -/
inductive Refusal where
  /-- Raised by an arm of `exec` whose instruction has no meaning; no arm does. Safe. -/
  | notModelled (mnemonic : String)
  /-- Raised by `LOADRX` of more than 18 bytes: "there is no such action", "a model refuses a longer load rather than
  giving it a meaning" (rule R18, D23, U9). Safe: the model stops. -/
  | loadTooLong
  /-- Raised by `connect` while a session is open: a second host (rule R34, rule R153 (a), U2). Safe: there is no such
  run. -/
  | secondHost
  /-- Raised by `receive` of another number of bytes than `EXPLEN`: the transport gives "exactly n bytes" or fails
  (rule R41). Safe: there is no such action. -/
  | replyLength
  deriving DecidableEq, Repr

/-- The machine: Table ST-1 of rule R10, in its order, and the two fields of the host. -/
structure State where
  /-- `STATUS`, 8 bits; its fields are in Machine/Flags.lean (rule R15). -/
  status : BitVec 8
  /-- `CRC`, 8 bits: result of the last `CRC8` operation (rule R14). -/
  crc : Byte
  /-- `TXLEN`, 3 bits: length of the command frame in `TX` (rule R16). -/
  txLen : BitVec 3
  /-- `EXPLEN`, 5 bits: length of the response the last encoded command expects (rule R17). -/
  expLen : BitVec 5
  /-- `RXLEN`, 5 bits: number of valid bytes in `RX` (rule R18). -/
  rxLen : BitVec 5
  /-- `W[0]` to `W[5]`: data words of the last passing decode (rule R11). -/
  w : Vector Word 6
  /-- `TX`, offsets 0 to 4: the command frame last built (rule R16). -/
  tx : Memory
  /-- `RX`, offsets 0 to 17: the response frame last loaded (rule R18). -/
  rx : Memory
  /-- The host's remaining actions, next one first. The model's own field, not the block's (rule R20, assumption 3). -/
  program : List HostAction
  /-- The host's records of its own doing (U6). The model's own field, not the block's (assumption 8). -/
  records : Records
  deriving DecidableEq, Repr

/-- After reset every item of Table ST-1 is zero (rule R23, rule R150); the host has asked for nothing and done nothing. -/
def State.reset : State where
  status := 0
  crc := 0
  txLen := 0
  expLen := 0
  rxLen := 0
  w := Vector.replicate 6 0
  tx := []
  rx := []
  program := []
  records := Records.initial

end Sys2Proof.Machine
end

