-- ==== Sys2Proof/Machine/Flags.lean ====
section
/-! DEFINITION. The fields of `STATUS` (Table ST-2 of rule R15) and the error codes (Table X-1 of rule R131).
Every flag computation of the block is one of the field writes below: there are no other condition codes (rule
R22). A write of one field leaves the other bits, the reserved bit 7 among them, as they are. -/

namespace Sys2Proof.Machine

/-- The error codes of `STATUS.ERR` (Table X-1 of rule R131). -/
inductive ErrorCode where
  /-- Code 0: the operation completed without error. -/
  | none
  /-- Code 1: the length is right and some group has `CK != crc8(DH, DL)` (rule R132). -/
  | checksumError
  /-- Code 2: a decode or `CHK` found another length than it needs (rule R133). -/
  | lengthError
  /-- Code 3: an undefined `OPSEL` or an encode operand out of range (rule R134). -/
  | illegalOperation
  deriving DecidableEq, Repr

/-- The number of an error (Table X-1 of rule R131). -/
def ErrorCode.code : ErrorCode → BitVec 2
  | .none => 0
  | .checksumError => 1
  | .lengthError => 2
  | .illegalOperation => 3

/-! ## Reading a field -/

/-- `VALID`, bit 0 (Table ST-2). -/
def State.valid (s : State) : Bool := s.status.getLsbD 0

/-- `MATCH`, bit 1 (Table ST-2). -/
def State.matched (s : State) : Bool := s.status.getLsbD 1

/-- `ERR`, bits 3:2 (Table ST-2). -/
def State.err (s : State) : BitVec 2 := s.status.extractLsb' 2 2

/-- `NGRP`, bits 6:4 (Table ST-2). -/
def State.ngrp (s : State) : BitVec 3 := s.status.extractLsb' 4 3

/-- `STATUS[7]`, reserved (Table ST-2, U14). -/
def State.reservedBit (s : State) : Bool := s.status.getLsbD 7

/-! ## Writing a field -/

/-- `STATUS` with `VALID` written. -/
def statusWithValid (st : BitVec 8) (v : Bool) : BitVec 8 :=
  st.extractLsb' 1 7 ++ BitVec.ofBool v

/-- `STATUS` with `MATCH` written. -/
def statusWithMatch (st : BitVec 8) (m : Bool) : BitVec 8 :=
  st.extractLsb' 2 6 ++ BitVec.ofBool m ++ st.extractLsb' 0 1

/-- `STATUS` with `ERR` written. -/
def statusWithErr (st : BitVec 8) (e : BitVec 2) : BitVec 8 :=
  st.extractLsb' 4 4 ++ e ++ st.extractLsb' 0 2

/-- `STATUS` with `NGRP` written. -/
def statusWithNgrp (st : BitVec 8) (n : BitVec 3) : BitVec 8 :=
  st.extractLsb' 7 1 ++ n ++ st.extractLsb' 0 4

/-- `STATUS.ERR <- code`. -/
def State.setErr (s : State) (e : ErrorCode) : State :=
  { s with status := statusWithErr s.status e.code }

/-- `STATUS.MATCH <- m`. -/
def State.setMatched (s : State) (m : Bool) : State :=
  { s with status := statusWithMatch s.status m }

/-- `STATUS.VALID <- v` and `STATUS.NGRP <- n`, which every decode writes together (rule R100). -/
def State.setResult (s : State) (v : Bool) (n : BitVec 3) : State :=
  { s with status := statusWithNgrp (statusWithValid s.status v) n }

end Sys2Proof.Machine
end

