-- ==== Sys2Proof/Machine/Ops.lean ====
section
/-! DEFINITION. The named operations over the buffers (`MemRead`, `MemWrite` of rule R40), the writes of the
other containers, and `raise` (rule R136). There is no return from an error: "There is no return-from-error
operation and no nesting" (rule R137). -/

namespace Sys2Proof.Machine

/-! ## A byte buffer in canonical form -/

/-- The byte at an offset. -/
def Memory.read : Memory → Nat → Byte
  | [], _ => Memory.unlisted
  | (b, x) :: m, a => if a = b then x else Memory.read m a

/-- The buffer with one byte stored; storing what an unlisted offset reads as removes the entry. -/
def Memory.write : Memory → Nat → Byte → Memory
  | [], a, v => if v = Memory.unlisted then [] else [(a, v)]
  | (b, x) :: m, a, v =>
    if a < b then (if v = Memory.unlisted then (b, x) :: m else (a, v) :: (b, x) :: m)
    else if a = b then (if v = Memory.unlisted then m else (a, v) :: m)
    else (b, x) :: Memory.write m a v

/-- The bytes of a sequence stored one after another from an offset on. -/
def Memory.writeBytes : Memory → Nat → List Byte → Memory
  | m, _, [] => m
  | m, off, b :: bs => Memory.writeBytes (Memory.write m off b) (off + 1) bs

/-- The `n` bytes from an offset on. -/
def Memory.readBytes : Memory → Nat → Nat → List Byte
  | _, _, 0 => []
  | m, off, n + 1 => Memory.read m off :: Memory.readBytes m (off + 1) n

/-- The canonical form: offsets strictly rising, no entry equal to what an unlisted offset reads as. -/
def Memory.wf : Memory → Bool
  | [] => true
  | (b, x) :: m => decide (x ≠ Memory.unlisted) && (m.all fun c => decide (b < c.1)) && Memory.wf m

/-- Every listed offset is below `n`. -/
def Memory.below (m : Memory) (n : Nat) : Bool := m.all fun c => decide (c.1 < n)

/-! ## The primitives of rule R40 -/

/-- `MemRead(RX, off, n)`: the bytes `RX[off] .. RX[off+n-1]`, "defined only when `off + n <= RXLEN`" (rule R40) and
inside the 18 bytes that exist (rule R30); undefined otherwise (assumption 9). -/
def memReadRx (off n : Nat) (s : State) : Option (List Byte) :=
  if off + n ≤ s.rxLen.toNat ∧ off + n ≤ Config.rxSize then some (s.rx.readBytes off n) else none

/-- `MemWrite(TX, off, n, bs)`: `TX[off+i] <- bs[i]`, "defined only when `off + n <= 5` and `|bs| = n`" (rule R40). -/
def memWriteTx (off n : Nat) (bs : List Byte) (m : Memory) : Option Memory :=
  if off + n ≤ Config.txSize ∧ bs.length = n then some (m.writeBytes off bs) else none

/-! ## Writes of whole containers -/

/-- `CRC <- c`. -/
def State.setCrc (s : State) (c : Byte) : State := { s with crc := c }

/-- All six data words at once: "A decode operation writes all six `W` registers" (rule R33). -/
def State.setWords (s : State) (w : Vector Word 6) : State := { s with w := w }

/-- `TX` with `TXLEN` and `EXPLEN`, which an encode operation writes together (rule R33). -/
def State.setFrame (s : State) (tx : Memory) (txLen : BitVec 3) (expLen : BitVec 5) : State :=
  { s with tx := tx, txLen := txLen, expLen := expLen }

/-- `RX` with `RXLEN`, which `LOADRX` writes together (rule R33). -/
def State.setReceived (s : State) (rx : Memory) (rxLen : BitVec 5) : State :=
  { s with rx := rx, rxLen := rxLen }

/-- The host's remaining actions. -/
def State.setProgram (s : State) (p : List HostAction) : State := { s with program := p }

/-- The records of the host. -/
def State.setRecords (s : State) (c : Records) : State := { s with records := c }

/-- Every item of Table ST-1 at its reset value (rule R23); the host's list of actions and its records are not the
block's and stay. `CLR` and the reset input are "two ways to the reset state and they are equivalent" (rule R151). -/
def State.cleared (s : State) : State := (State.reset.setProgram s.program).setRecords s.records

/-! ## Taking an error -/

/-- `raise E` (rule R136): the writes made before it stand, `STATUS.ERR` receives the code of `E` and the operation is
complete; "Nothing is saved, no mode changes, no handler is entered and control goes nowhere". -/
def raise (e : ErrorCode) (s : State) : State := s.setErr e

/-- The end of an operation without error: `STATUS.ERR <- 0` (Table X-1 of rule R131). -/
def complete (s : State) : State := s.setErr .none

end Sys2Proof.Machine
end

