-- ==== Sys2Proof/Machine/Operands.lean ====
section
/-! DEFINITION. Every operand form of the block: the parts of `ARG` (rule R48, rule R67, rule R68), the groups and
words of a received frame (rule R32, rule R49), and the views of the data words (rule R12, rule R13). Operands are
assembled by concatenation only: no sign or zero extension, no scaling (rule R40, rule R49). -/

namespace Sys2Proof.Machine

/-! ## Parts of ARG -/

/-- `v[15:8]`, the byte transmitted first (rule R31, rule R48). -/
def hiByte (v : Word) : Byte := v.extractLsb' 8 8

/-- `v[7:0]` (rule R31, rule R48). -/
def loByte (v : Word) : Byte := v.extractLsb' 0 8

/-- `zext_16(ARG[7:0])`, the parameter of `WRINT` (rule R48, rule R79). -/
def lowByteParameter (arg : Word) : Word := (loByte arg).setWidth 16

/-- The group index of `CHK`: `ARG` as an unsigned integer 0 to 65535 (rule R68). -/
def groupIndex (arg : Word) : Nat := arg.toNat

/-! ## Groups of the receive buffer -/

/-- One checksum group (Table E-2 of rule R46). -/
structure Group where
  /-- data-high -/
  dh : Byte
  /-- data-low -/
  dl : Byte
  /-- checksum -/
  ck : Byte
  deriving DecidableEq, Repr

/-- The invariant of a group: "`checksum == CRC8(data-high, data-low)`" (rule R46). -/
def Group.intact (g : Group) : Bool := g.ck == crc8 g.dh g.dl

/-- `MemRead(RX, 3*g, 3)` as a group (rule R32, rule R68, rule R100). -/
def readGroup (g : Nat) (s : State) : Option Group :=
  match memReadRx (Config.groupSize * g) Config.groupSize s with
  | some [dh, dl, ck] => some ⟨dh, dl, ck⟩
  | _ => none

/-- `word(g) = RX[3g] ++ RX[3g+1]` (rule R49). -/
def rxWord (s : State) (g : Nat) : Word := s.rx.read (3 * g) ++ s.rx.read (3 * g + 1)

/-- `fbits(j) = RX[6j] ++ RX[6j+1] ++ RX[6j+3] ++ RX[6j+4]` (rule R49, rule R115). -/
def rxFloatBits (s : State) (j : Nat) : Float32Bits :=
  s.rx.read (6 * j) ++ s.rx.read (6 * j + 1) ++ s.rx.read (6 * j + 3) ++ s.rx.read (6 * j + 4)

/-! ## Views of the data words -/

/-- `F[j] = W[2j] ++ W[2j+1]` (rule R12). -/
def State.f (s : State) (j : Fin 3) : Float32Bits := s.w[2 * j.val] ++ s.w[2 * j.val + 1]

/-- `MAJOR = W[0][15:8]` (rule R13). -/
def State.major (s : State) : Byte := hiByte s.w[0]

/-- `MINOR = W[0][7:0]` (rule R13). -/
def State.minor (s : State) : Byte := loByte s.w[0]

/-- `READY = (W[0][7:0] == 0x01)`; the data-high byte is not examined (rule R13). -/
def State.ready (s : State) : Bool := loByte s.w[0] == 0x01

/-- The frame a host takes from the block: `TX[0..TXLEN-1]` in transmission order (rule R16, rule R41). -/
def State.frame (s : State) : List Byte := s.tx.readBytes 0 s.txLen.toNat

end Sys2Proof.Machine
end

