-- ==== Sys2Proof/Machine/Checksum.lean ====
section
/-! DEFINITION. The checksum family: `CRC8` (rule R67) and `CHK` (rule R68). -/

namespace Sys2Proof.Machine

/-- `CRC8` (rule R67): `CRC <- crc8(ARG[15:8], ARG[7:0])`, `ERR <- 0`; no error for any `ARG`. -/
def execCrc8 (arg : Word) (s : State) : Host.Outcome State Fault Refusal :=
  .next (complete (s.setCrc (crc8 (hiByte arg) (loByte arg))))

/-- `CHK` (rule R68): `LengthError` with `MATCH <- 0` when `3*g + 3 > RXLEN`; otherwise `MATCH` is the comparison
of the group's checksum byte with `crc8` of its data bytes, a mismatch being a result and no error. -/
def execChk (arg : Word) (s : State) : Host.Outcome State Fault Refusal :=
  if 3 * groupIndex arg + 3 > s.rxLen.toNat then
    .next (raise .lengthError (s.setMatched false))
  else
    match readGroup (groupIndex arg) s with
    | some g => .next (complete (s.setMatched g.intact))
    | none => .fault .bufferAccess

end Sys2Proof.Machine
end

