-- ==== Sys2Proof/Machine/Decoder.lean ====
section
/-! DEFINITION. The frame decoder family: the procedure `decode(n)` of rule R100 and the operations `DEC3`, `DEC6` and
`DEC18` (rules R101 to R103). Every group is validated before anything is written to `W`. -/

namespace Sys2Proof.Machine

/-- The scan of rule R100 over the group indices in the order given, ending at the first mismatch: `some true` when
every group passed, `some false` at a mismatch, `none` where `MemRead` is not defined. -/
def scanGroups (s : State) : List Nat → Option Bool
  | [] => some true
  | g :: gs =>
    match readGroup g s with
    | none => none
    | some grp => if grp.intact then scanGroups s gs else some false

/-- `fail(E)` of rule R100: all six words 0, `VALID <- 0`, `NGRP <- 0`, `raise E`. -/
def decodeFail (e : ErrorCode) (s : State) : State :=
  raise e ((s.setWords (Vector.replicate 6 0)).setResult false 0)

/-- The six words a passing decode of `k` groups commits: `RX[3g] ++ RX[3g+1]` for `g < k`, 0 above (rule R11,
rule R100). -/
def decodedWords (k : Nat) (s : State) : Vector Word 6 :=
  Vector.ofFn fun g : Fin 6 => if g.val < k then rxWord s g.val else 0

/-- The commit of rule R100: the words, `VALID <- 1`, `NGRP <- k`, `ERR <- 0`. -/
def decodeCommit (k : Nat) (s : State) : State :=
  complete ((s.setWords (decodedWords k s)).setResult true (BitVec.ofNat 3 k))

/-- `decode(n)` of rule R100 with `k = n / 3` groups: the length test first, then the scan, then the commit. -/
def decodeResponse (n : Nat) (s : State) : Host.Outcome State Fault Refusal :=
  if s.rxLen.toNat ≠ n then .next (decodeFail .lengthError s)
  else
    match scanGroups s (List.range (n / Config.groupSize)) with
    | some true => .next (decodeCommit (n / Config.groupSize) s)
    | some false => .next (decodeFail .checksumError s)
    | none => .fault .bufferAccess

/-- `DEC3: decode(3)` (rule R101). -/
def execDec3 (s : State) : Host.Outcome State Fault Refusal := decodeResponse 3 s

/-- `DEC6: decode(6)` (rule R102). -/
def execDec6 (s : State) : Host.Outcome State Fault Refusal := decodeResponse 6 s

/-- `DEC18: decode(18)` (rule R103). -/
def execDec18 (s : State) : Host.Outcome State Fault Refusal := decodeResponse 18 s

end Sys2Proof.Machine
end

