-- ==== Sys2Proof/Machine/Encoder.lean ====
section
/-! DEFINITION. The frame encoder family: the helpers `emit2`, `emit5` and `refuse` of rule R75 and the 13 encode
operations (rules R76 to R88). -/

namespace Sys2Proof.Machine

/-- `MemWrite(TX, 0, 5, bs)` with `TXLEN` and `EXPLEN`, the part that the three helpers of rule R75 share,
and the error code each of them leaves. -/
def storeFrame (bs : List Byte) (txLen : BitVec 3) (expLen : BitVec 5) (e : ErrorCode) (s : State) :
    Host.Outcome State Fault Refusal :=
  match memWriteTx 0 5 bs s.tx with
  | some tx => .next (raise e (s.setFrame tx txLen expLen))
  | none => .fault .bufferAccess

/-- `emit2(reg, n)` (rule R75): the register address alone, the tail zeroed. -/
def emit2 (reg : Word) (n : BitVec 5) (s : State) : Host.Outcome State Fault Refusal :=
  storeFrame [hiByte reg, loByte reg, 0, 0, 0] 2 n .none s

/-- `emit5(reg, p)` (rule R75): register address, parameter, `crc8` of the parameter's two bytes; no response. -/
def emit5 (reg p : Word) (s : State) : Host.Outcome State Fault Refusal :=
  storeFrame [hiByte reg, loByte reg, hiByte p, loByte p, crc8 (hiByte p) (loByte p)] 5 0 .none s

/-- `refuse()` (rule R75, rule R91): no frame exists afterwards; `raise IllegalOperation`. -/
def refuse (s : State) : Host.Outcome State Fault Refusal :=
  storeFrame [0, 0, 0, 0, 0] 0 0 .illegalOperation s

/-- `RDFW: emit2(0xD100, 3)` (rule R76). -/
def execRdfw (s : State) : Host.Outcome State Fault Refusal := emit2 0xD100 3 s

/-- `SRST: emit2(0xD304, 0)` (rule R77): resets the sensor when sent, not the block. -/
def execSrst (s : State) : Host.Outcome State Fault Refusal := emit2 0xD304 0 s

/-- `RDINT: emit2(0x4600, 3)` (rule R78). -/
def execRdint (s : State) : Host.Outcome State Fault Refusal := emit2 0x4600 3 s

/-- `WRINT` (rule R79): refused when `ARG` is 0 or above 255, else `emit5(0x4600, zext_16(ARG[7:0]))`. -/
def execWrint (sec : Word) (s : State) : Host.Outcome State Fault Refusal :=
  if sec.toNat = 0 ∨ sec.toNat > 255 then refuse s else emit5 0x4600 (lowByteParameter sec) s

/-- `RDASC: emit2(0x5306, 3)` (rule R80). -/
def execRdasc (s : State) : Host.Outcome State Fault Refusal := emit2 0x5306 3 s

/-- `WRASC` (rule R81): refused when `ARG > 1`, else `emit5(0x5306, ARG)`. -/
def execWrasc (en : Word) (s : State) : Host.Outcome State Fault Refusal :=
  if en.toNat > 1 then refuse s else emit5 0x5306 en s

/-- `RDFRC: emit2(0x5204, 3)` (rule R82). -/
def execRdfrc (s : State) : Host.Outcome State Fault Refusal := emit2 0x5204 3 s

/-- `WRFRC(ARG): emit5(0x5204, ARG)` (rule R83). -/
def execWrfrc (v : Word) (s : State) : Host.Outcome State Fault Refusal := emit5 0x5204 v s

/-- `RDTOFF: emit2(0x5403, 3)` (rule R84). -/
def execRdtoff (s : State) : Host.Outcome State Fault Refusal := emit2 0x5403 3 s

/-- `STARTC(ARG): emit5(0x0010, ARG)` (rule R85), also spelled `WRPRESS` (rule R89). -/
def execStartc (p : Word) (s : State) : Host.Outcome State Fault Refusal := emit5 0x0010 p s

/-- `RDRDY: emit2(0x0202, 3)` (rule R86). -/
def execRdrdy (s : State) : Host.Outcome State Fault Refusal := emit2 0x0202 3 s

/-- `STOPM: emit2(0x0104, 0)` (rule R87). -/
def execStopm (s : State) : Host.Outcome State Fault Refusal := emit2 0x0104 0 s

/-- `RDMEAS: emit2(0x0300, 18)` (rule R88). -/
def execRdmeas (s : State) : Host.Outcome State Fault Refusal := emit2 0x0300 18 s

end Sys2Proof.Machine
end

