-- ==== Sys2Proof/Machine/Float32.lean ====
section
/-! DEFINITION. How the 32 bits of a float view are read (rule R116): the binary32 fields, classes and values. The block
never does this reading: it delivers all 2^32 patterns unchanged (rule R117); only a claim that speaks of a numeric
value uses this file. Rule R116 supplies the layout from general knowledge (G2 of spec/93_implementation_defined.md),
assumption 2. -/

namespace Sys2Proof.Machine

/-- The sign `s = F[j][31]` (rule R116). -/
def floatSign (v : Float32Bits) : Bool := v.getLsbD 31

/-- The biased exponent `e = F[j][30:23]` (rule R116). -/
def floatExponent (v : Float32Bits) : BitVec 8 := v.extractLsb' 23 8

/-- The fraction `f = F[j][22:0]` (rule R116). -/
def floatFraction (v : Float32Bits) : BitVec 23 := v.extractLsb' 0 23

/-- What a pattern stands for (rule R116). -/
inductive FloatValue where
  /-- `(-1)^s x significand x 2^exponent`, exactly; a zero has significand 0 and keeps its sign. -/
  | finite (negative : Bool) (significand : Nat) (exponent : Int)
  /-- Infinity with its sign. -/
  | infinity (negative : Bool)
  /-- A NaN with its sign, its quiet bit `f[22]` and its payload, the remaining bits of the fraction. -/
  | nan (negative quiet : Bool) (payload : BitVec 22)
  deriving DecidableEq, Repr

/-- The reading of rule R116. Subnormal: `(-1)^s x f x 2^(-149)`; normal: `(-1)^s x (2^23 + f) x 2^(e-150)`. -/
def readFloat (v : Float32Bits) : FloatValue :=
  if (floatExponent v).toNat = 255 then
    if (floatFraction v).toNat = 0 then .infinity (floatSign v)
    else .nan (floatSign v) ((floatFraction v).getLsbD 22) ((floatFraction v).extractLsb' 0 22)
  else if (floatExponent v).toNat = 0 then .finite (floatSign v) (floatFraction v).toNat (-149)
  else .finite (floatSign v) (2 ^ 23 + (floatFraction v).toNat) ((floatExponent v).toNat - 150)

/-- The rational number of a finite value (the two zeros both give 0). -/
def FloatValue.toRat : FloatValue → Option Rat
  | .finite neg m e => some ((if neg then -1 else 1) * (m : Rat) * (2 : Rat) ^ e)
  | .infinity _ => none
  | .nan _ _ _ => none

/-- The three measured quantities (rule R118). -/
inductive Channel where
  /-- CO₂ concentration in ppm. -/
  | co2
  /-- Temperature in degrees Celsius. -/
  | temperature
  /-- Relative humidity in percent. -/
  | humidity
  deriving DecidableEq, Repr

/-- The float view of a channel after a passing `DEC18`: CO₂, T, RH in that order (rule R118). -/
def State.channel (s : State) : Channel → Float32Bits
  | .co2 => s.f 0
  | .temperature => s.f 1
  | .humidity => s.f 2

end Sys2Proof.Machine
end

