-- ==== Sys2Proof/Machine/System.lean ====
section
/-! DEFINITION. The system operations: `CLR` (rule R125) and the fate of an undefined `OPSEL` (rule R126). -/

namespace Sys2Proof.Machine

/-- `CLR` (rule R125): "the state after `CLR` equals the state after reset (rule R23) whatever it was before". -/
def execClr (s : State) : Host.Outcome State Fault Refusal := .next s.cleared

/-- An `OPSEL` that is none of the 19 codes selects no operation: `raise IllegalOperation`, "`STATUS.ERR <- 3`,
nothing else changes" (rule R126; assumption 4). -/
def raiseUndefinedOpsel (s : State) : Host.Outcome State Fault Refusal :=
  .next (raise .illegalOperation s)

end Sys2Proof.Machine
end

