-- ==== Sys2Proof/Machine/Dispatch.lean ====
section
/-! DEFINITION. The dispatch: one arm per operation of Table E-4 (rule R47), each a call of its meaning. -/

namespace Sys2Proof.Machine

def exec (i : Instr) (s : State) : Host.Outcome State Fault Refusal :=
  match i with
  | .clr => Sys2Proof.Machine.execClr s
  | .crc8 arg => Sys2Proof.Machine.execCrc8 arg s
  | .chk g => Sys2Proof.Machine.execChk g s
  | .dec3 => Sys2Proof.Machine.execDec3 s
  | .dec6 => Sys2Proof.Machine.execDec6 s
  | .dec18 => Sys2Proof.Machine.execDec18 s
  | .rdfw => Sys2Proof.Machine.execRdfw s
  | .srst => Sys2Proof.Machine.execSrst s
  | .rdint => Sys2Proof.Machine.execRdint s
  | .wrint sec => Sys2Proof.Machine.execWrint sec s
  | .rdasc => Sys2Proof.Machine.execRdasc s
  | .wrasc en => Sys2Proof.Machine.execWrasc en s
  | .rdfrc => Sys2Proof.Machine.execRdfrc s
  | .wrfrc v => Sys2Proof.Machine.execWrfrc v s
  | .rdtoff => Sys2Proof.Machine.execRdtoff s
  | .startc p => Sys2Proof.Machine.execStartc p s
  | .rdrdy => Sys2Proof.Machine.execRdrdy s
  | .stopm => Sys2Proof.Machine.execStopm s
  | .rdmeas => Sys2Proof.Machine.execRdmeas s

end Sys2Proof.Machine
end

