-- ==== Sys2Proof/WellFormed.lean ====
section
/-! DEFINITION. Which operations are well formed: the operand lies in the range that Table S-1 of rule R5 and
the `min`/`max` of spec/opcode_table.json admit. An operation outside its range can still be issued; it then
raises `IllegalOperation` and builds no frame (rule R91). -/

namespace Sys2Proof

/-- `WRINT` takes 1 to 255 (rule R79), `WRASC` 0 or 1 (rule R81); every other operand is unrestricted. -/
def Instr.wellFormed : Instr → Bool
  | .clr => true
  | .crc8 _ => true
  | .chk _ => true
  | .dec3 => true
  | .dec6 => true
  | .dec18 => true
  | .rdfw => true
  | .srst => true
  | .rdint => true
  | .wrint sec => decide (1 ≤ sec.toNat) && decide (sec.toNat ≤ 255)
  | .rdasc => true
  | .wrasc en => decide (en.toNat ≤ 1)
  | .rdfrc => true
  | .wrfrc _ => true
  | .rdtoff => true
  | .startc _ => true
  | .rdrdy => true
  | .stopm => true
  | .rdmeas => true

end Sys2Proof
end

