-- ==== Sys2Proof/Decode.lean ====
section
/-! DEFINITION. Both encodings of the block, read and written. The HOST encoding is the pair (`OPSEL`, `ARG`)
of rule R47, which the block itself decodes. The WIRE encoding is the command frame of format `F2` or `F5`
(rule R45), which the block only builds; its inverse is `parse_frame` of rule R53. spec/opcode_table.json numbers
six rows by `OPSEL` (8 bits) and thirteen by their wire frame, read as one big-endian number (rule R45, rule
R47), so `decodeTableWord` reads 8 bits by the first encoding and 16 or 40 bits by the second. -/

namespace Sys2Proof

open Machine (crc8)

/-- Why bits are no operation. -/
inductive DecodeError where
  /-- `OPSEL` is none of the 19 codes: 0x06 to 0x0F and 0x1D to 0xFF (rule R52 (a), rule R126). -/
  | undefinedOpsel
  /-- A command frame is 2 or 5 bytes long (rule R45, rule R53). -/
  | frameLength
  /-- The first two bytes are no register address that has a frame of this length (rule R52 (c), (d)). -/
  | unknownRegister
  /-- The fifth byte is not the `crc8` of the third and fourth (rule R52 (d), rule R53). -/
  | frameChecksum
  /-- The operand of a `WRINT` or `WRASC` frame is out of range (rule R53). -/
  | operandRange
  deriving DecidableEq, Repr

/-! ## The host encoding -/

/-- The block's own decoder: the exact comparison of `OPSEL` with the 19 codes of Table E-4 (rule R47);
`ARG` is the operand or is ignored, all 16 bits (rule R19). -/
def decodeIssue (opsel : Byte) (arg : Word) : Except DecodeError Instr :=
  match opsel.toNat with
  | 0x00 => .ok .clr
  | 0x01 => .ok (.crc8 arg)
  | 0x02 => .ok (.chk arg)
  | 0x03 => .ok .dec3
  | 0x04 => .ok .dec6
  | 0x05 => .ok .dec18
  | 0x10 => .ok .rdfw
  | 0x11 => .ok .srst
  | 0x12 => .ok .rdint
  | 0x13 => .ok (.wrint arg)
  | 0x14 => .ok .rdasc
  | 0x15 => .ok (.wrasc arg)
  | 0x16 => .ok .rdfrc
  | 0x17 => .ok (.wrfrc arg)
  | 0x18 => .ok .rdtoff
  | 0x19 => .ok (.startc arg)
  | 0x1A => .ok .rdrdy
  | 0x1B => .ok .stopm
  | 0x1C => .ok .rdmeas
  | _ => .error .undefinedOpsel

/-- The encoder of the host format: the pair (`OPSEL`, `ARG`) of Table E-4. A mnemonic written alone stands
for `ARG = 0` (rule R54). -/
def encode : Instr → Byte × Word
  | .clr => (0x00, 0)
  | .crc8 arg => (0x01, arg)
  | .chk g => (0x02, g)
  | .dec3 => (0x03, 0)
  | .dec6 => (0x04, 0)
  | .dec18 => (0x05, 0)
  | .rdfw => (0x10, 0)
  | .srst => (0x11, 0)
  | .rdint => (0x12, 0)
  | .wrint sec => (0x13, sec)
  | .rdasc => (0x14, 0)
  | .wrasc en => (0x15, en)
  | .rdfrc => (0x16, 0)
  | .wrfrc v => (0x17, v)
  | .rdtoff => (0x18, 0)
  | .startc p => (0x19, p)
  | .rdrdy => (0x1A, 0)
  | .stopm => (0x1B, 0)
  | .rdmeas => (0x1C, 0)

/-! ## The wire encoding -/

/-- The `F2` rows: the register address alone (Table E-4, Table M-1 of rule R36). -/
def parseF2 (reg : Word) : Except DecodeError Instr :=
  match reg.toNat with
  | 0xD100 => .ok .rdfw
  | 0xD304 => .ok .srst
  | 0x4600 => .ok .rdint
  | 0x5306 => .ok .rdasc
  | 0x5204 => .ok .rdfrc
  | 0x5403 => .ok .rdtoff
  | 0x0202 => .ok .rdrdy
  | 0x0104 => .ok .stopm
  | 0x0300 => .ok .rdmeas
  | _ => .error .unknownRegister

/-- The `F5` rows with the operand constraints of rule R53; the checksum has been compared already. -/
def parseF5 (reg : Word) (ph pl : Byte) : Except DecodeError Instr :=
  match reg.toNat with
  | 0x4600 =>
    if ph = 0 ∧ pl ≠ 0 then .ok (.wrint ((0 : Byte) ++ pl)) else .error .operandRange
  | 0x5306 =>
    if ph = 0 ∧ pl.toNat ≤ 1 then .ok (.wrasc ((0 : Byte) ++ pl)) else .error .operandRange
  | 0x5204 => .ok (.wrfrc (ph ++ pl))
  | 0x0010 => .ok (.startc (ph ++ pl))
  | _ => .error .unknownRegister

/-- `parse_frame` of rule R53, total on any bytes. -/
def parseFrame : List Byte → Except DecodeError Instr
  | [rh, rl] => parseF2 (rh ++ rl)
  | [rh, rl, ph, pl, ck] => if ck = crc8 ph pl then parseF5 (rh ++ rl) ph pl else .error .frameChecksum
  | _ => .error .frameLength

/-- The wire bytes of a frame with a parameter, format `F5` (Table E-1 of rule R45, rule R48). -/
def frameF5 (rh rl : Byte) (p : Word) : List Byte :=
  [rh, rl, p.extractLsb' 8 8, p.extractLsb' 0 8, crc8 (p.extractLsb' 8 8) (p.extractLsb' 0 8)]

/-- The encoder of the wire format: the frame of a well-formed encode operation in transmission order, as the
"wire frame built" column of Table E-4 writes it; an operation that builds no frame has none. -/
def wireFrame : Instr → Option (List Byte)
  | .clr => none
  | .crc8 _ => none
  | .chk _ => none
  | .dec3 => none
  | .dec6 => none
  | .dec18 => none
  | .rdfw => some [0xD1, 0x00]
  | .srst => some [0xD3, 0x04]
  | .rdint => some [0x46, 0x00]
  | .wrint sec => some (frameF5 0x46 0x00 sec)
  | .rdasc => some [0x53, 0x06]
  | .wrasc en => some (frameF5 0x53 0x06 en)
  | .rdfrc => some [0x52, 0x04]
  | .wrfrc v => some (frameF5 0x52 0x04 v)
  | .rdtoff => some [0x54, 0x03]
  | .startc p => some (frameF5 0x00 0x10 p)
  | .rdrdy => some [0x02, 0x02]
  | .stopm => some [0x01, 0x04]
  | .rdmeas => some [0x03, 0x00]

/-- Whether the operation is one of the 13 encode operations, whose codes are 0x10 to 0x1C (rule R47). -/
def Instr.buildsFrame (i : Instr) : Bool := (wireFrame i).isSome

/-- The length of the response a command expects, the `EXPLEN` column of Table E-4 (rule R17, rule R50). -/
def responseLength : Instr → Nat
  | .clr => 0
  | .crc8 _ => 0
  | .chk _ => 0
  | .dec3 => 0
  | .dec6 => 0
  | .dec18 => 0
  | .rdfw => 3
  | .srst => 0
  | .rdint => 3
  | .wrint _ => 0
  | .rdasc => 3
  | .wrasc _ => 0
  | .rdfrc => 3
  | .wrfrc _ => 0
  | .rdtoff => 3
  | .startc _ => 0
  | .rdrdy => 3
  | .stopm => 0
  | .rdmeas => 18

/-! ## The numbering of spec/opcode_table.json -/

/-- The `n` bytes of a frame numbered with byte 0 most significant (rule R45), first byte first. -/
def wireBytes : Nat → Nat → List Byte
  | 0, _ => []
  | n + 1, w => BitVec.ofNat 8 (w / 2 ^ (8 * n)) :: wireBytes n w

/-- A byte sequence as one big-endian number, byte 0 most significant (rule R45). -/
def wireNumber (bs : List Byte) : Nat := bs.foldl (fun n b => n * 256 + b.toNat) 0

/-- The instruction of a table row's bits: an 8-bit row is `OPSEL` (its `ARG` has no bits in the table and is
0), a 16-bit row a frame of format `F2`, a 40-bit row a frame of format `F5` (rule R45, rule R47). -/
def decodeTableWord (nbits w : Nat) : Option Instr :=
  if 2 ^ nbits ≤ w then none
  else if nbits = 8 then (decodeIssue (BitVec.ofNat 8 w) 0).toOption
  else if nbits = 16 then (parseFrame (wireBytes 2 w)).toOption
  else if nbits = 40 then (parseFrame (wireBytes 5 w)).toOption
  else none

end Sys2Proof
end

