-- ==== Sys2Proof/Machine/Records.lean ====
section
/-! DEFINITION. The host's contract: which host actions break the duties of rule R153 (c) to (f), and how the host's
records follow its actions. The block checks none of this (rule R153); "A model treats ... a breach of (c) to (f) as a
fault of the host". The records are kept at all times. The duties (e) and (f), on the use of outputs, bind at all times;
(c) and (d), which speak of frames given to a transport and of bytes read from it (rule R41), bind from the host's first
`open` on, whether or not a session is open: the vectors of spec/95_test_vectors.md, which open none, drive the block
alone (assumption 8). -/

namespace Sys2Proof.Machine

/-! ## What an operation leaves to the host -/

/-- What the operation leaves for the host to use: a frame, a result, or `MATCH` (rules R68, R75, R101). -/
def outputOf (i : Instr) : Option Output :=
  match i with
  | .clr | .crc8 _ => none
  | .chk _ => some .comparison
  | .dec3 | .dec6 | .dec18 => some .result
  | .rdfw | .srst | .rdint | .wrint _ | .rdasc | .wrasc _ | .rdfrc | .wrfrc _ | .rdtoff | .startc _ | .rdrdy | .stopm
  | .rdmeas => some .frame

/-- The operations that can raise: `CHK`, the decode operations, `WRINT`, `WRASC` (rule R142). -/
def canRaise : Instr → Bool
  | .chk _ | .dec3 | .dec6 | .dec18 | .wrint _ | .wrasc _ => true
  | .clr | .crc8 _ | .rdfw | .srst | .rdint | .rdasc | .rdfrc | .wrfrc _ | .rdtoff | .startc _ | .rdrdy | .stopm
  | .rdmeas => false

/-- The length a decode operation decodes (rules R101 to R103). -/
def decodeLength : Instr → Option Nat
  | .dec3 => some 3
  | .dec6 => some 6
  | .dec18 => some 18
  | .clr | .crc8 _ | .chk _ | .rdfw | .srst | .rdint | .wrint _ | .rdasc | .wrasc _ | .rdfrc | .wrfrc _ | .rdtoff
  | .startc _ | .rdrdy | .stopm | .rdmeas => none

/-- The operations that overwrite the frame in `TX`: "another encode operation or `CLR`" (rule R153 (c)). -/
def overwritesFrame (i : Instr) : Bool := i.buildsFrame || decide (i = .clr)

/-! ## What a register can be used for -/

/-- The output a register is part of. `STATUS` is how the errors are learned (rule R136); `CRC` comes from an operation
that cannot raise (rule R142); `RX` and `RXLEN` are the host's own. -/
def HostReg.output : HostReg → Option Output
  | .status | .crc | .rxLen | .rx _ => none
  | .matched => some .comparison
  | .txLen | .expLen | .tx _ => some .frame
  | .w _ | .f _ | .major | .minor | .ready => some .result

/-- Whether a view carries data after the decode performed. The float views "carry a measurement only when `VALID = 1` and
`NGRP` is 2 (`F[0]` only) or 6 (all three)" (rule R121); the named views of `W[0]` mean something only after a passing
`DEC3` (rule R13), that is with `NGRP = 1`. -/
def HostReg.carried (r : HostReg) (s : State) : Bool :=
  match r with
  | .f j => s.valid && (decide (s.ngrp.toNat = 6) || decide (s.ngrp.toNat = 2) && decide (j = 0))
  | .major | .minor | .ready => s.valid && decide (s.ngrp.toNat = 1)
  | .w _ => s.valid
  | .status | .matched | .crc | .txLen | .expLen | .rxLen | .tx _ | .rx _ => true

/-- Which command a view gives the answer of: the firmware version, data-ready, the measurement (rule R13, rule R118).
A data word serves every command. -/
def HostReg.answers (r : HostReg) (command : Instr) : Bool :=
  match r with
  | .major | .minor => decide (command = .rdfw)
  | .ready => decide (command = .rdrdy)
  | .f _ => decide (command = .rdmeas)
  | .w _ | .status | .matched | .crc | .txLen | .expLen | .rxLen | .tx _ | .rx _ => true

/-! ## The transport -/

/-- A session is open: there is a handle (rule R41). -/
def Records.connected (c : Records) : Bool := decide (c.transport = .opened)

/-- Rule R153 (c), (d) bind the host: it has called `open` (assumption 8). -/
def Records.bound (c : Records) : Bool := decide (c.transport ≠ .unused)

/-! ## The bytes loaded -/

/-- The bytes a transport read gave. -/
def Reply.bytes : Reply → Option (List Byte)
  | .received _ bs => some bs
  | .pending => none

/-- The command in question that those bytes answer. -/
def Reply.command : Reply → Option Instr
  | .received i _ => i
  | .pending => none

/-- The three float pairs of a measurement response (rule R32). -/
def floatPairsOf (bs : List Byte) : List (List Byte) := [bs.take 6, (bs.drop 6).take 6, (bs.drop 12).take 6]

/-- The bytes are the reply, or one float pair cut out of the answer to `RDMEAS` (rule R102). -/
def Reply.covers (reply : Reply) (bs : List Byte) : Bool :=
  match reply.bytes with
  | none => false
  | some got => decide (bs = got) || decide (reply.command = some .rdmeas) && decide (bs ∈ floatPairsOf got)

/-- Rule R153 (d): a host loads "exactly the bytes of one successful `read`"; beside them rule R102 lets it load 6 bytes
"on its own account" for `DEC6`. The one read is the last that succeeded (assumption 8). -/
def Reply.mayLoad (reply : Reply) (bs : List Byte) : Bool := decide (reply.bytes = some bs) || decide (bs.length = 6)

/-! ## Breaches: the fault of each action, or none -/

/-- Whether a decode of `n` bytes is one that a failure rules out: "do not decode after a failed `read`" (rule R153 (d)),
and after a failed write "the host then issues no decode for that exchange" (rule R41), which is "the decode operation for
that length", `EXPLEN`. Any other decode after a failed write is none for that exchange (assumption 8). -/
def Records.forbidsDecode (c : Records) (n : Nat) (s : State) : Bool :=
  match c.frame with
  | .readFailed => true
  | .writeFailed => decide (s.expLen.toNat = n)
  | .absent | .untaken | .sent | .finished => false

/-- Rule R153 (c), then (d): the frame in `TX` must be taken before it is overwritten, and a decode needs bytes of its
length that may be decoded, and no failure that rules it out. -/
def Records.issueFault (c : Records) (i : Instr) (s : State) : Option Fault :=
  if overwritesFrame i = true ∧ c.frame = .untaken then some .frameNotTaken
  else
    match decodeLength i with
    | none => none
    | some n =>
      if c.decodable = true ∧ c.forbidsDecode n s = false ∧ s.rxLen.toNat = n then none else some .decodeOutOfTurn

/-- Rule R153 (d). -/
def Records.loadFault (c : Records) (bs : List Byte) : Option Fault :=
  if c.reply.mayLoad bs then none else some .loadNotOneReply

/-- Rule R16, rule R153 (f), U10: never a frame of length 0, of an operation whose error was not checked, or twice. -/
def sendFault (s : State) : Option Fault :=
  if s.txLen.toNat = 0 then some .emptyFrame
  else if s.records.connected = false then some .notConnected
  else if .frame ∈ s.records.unchecked then some .errorNotChecked
  else if s.records.frame = .untaken then none else some .frameSentTwice

/-- Rule R17, rule R41: the host reads once after it sent a command that has a response (assumption 13). -/
def receiveFault (s : State) : Option Fault :=
  if s.records.connected = false then some .notConnected
  else if s.records.frame = .sent ∧ s.expLen.toNat ≠ 0 then none else some .noReplyExpected

/-- What the block's own state shows against the use of a register: no result (rule R105), a view that carries nothing
(rule R121, rule R13), no frame (rule R152). -/
def HostReg.emptyFault (r : HostReg) (s : State) : Option Fault :=
  match r.output with
  | some .result =>
    if s.valid = false then some .resultNotValid
    else if r.carried s = true then none else some .resultNotCarried
  | some .frame => if s.txLen.toNat = 0 then some .emptyFrame else none
  | some .comparison | none => none

/-- What the host's records show against the use of an output: an error not checked (rule R153 (f)), a result that
answers another command (rule R153 (e), U6). -/
def Records.useFault (c : Records) (r : HostReg) (o : Output) (command : Instr) : Option Fault :=
  if o ∈ c.unchecked then some .errorNotChecked
  else if o = .result ∧ ¬ (c.result = some command ∧ r.answers command = true) then some .resultOfOtherCommand
  else none

/-- The use of a register: what the block shows first, then the host's records. A register that is no output can be used
at any time (rule R158). -/
def consumeFault (r : HostReg) (command : Instr) (s : State) : Option Fault :=
  match r.output with
  | none => none
  | some o =>
    match r.emptyFault s with
    | some f => some f
    | none => s.records.useFault r o command

/-- The fault of a host action, if it breaks a duty. `LOADRX` of more than 18 bytes is no action at all (rule R18) and
is refused where it is performed. -/
def contractFault (a : HostAction) (s : State) : Option Fault :=
  match a with
  | .issue opsel arg =>
    if s.records.bound = false then none
    else
      match decodeIssue opsel arg with
      | .ok i => s.records.issueFault i s
      | .error _ => none
  | .loadRx bs => if s.records.bound = true ∧ bs.length ≤ Config.rxSize then s.records.loadFault bs else none
  | .reset => none
  | .read _ => none
  | .connect _ => none
  | .send _ => sendFault s
  | .receive _ => receiveFault s
  | .disconnect => if s.records.connected = false then some .notConnected else none
  | .consume r command => consumeFault r command s

/-! ## The records after an action -/

/-- What becomes of the frame's record when `TX` is as in this state. -/
def newFrameUse (s : State) : FrameUse := if s.txLen.toNat = 0 then .absent else .untaken

/-- After `CLR` or the reset input there is no frame, nothing loaded and no result (rule R23); bytes the transport gave, and
the session, are the host's. -/
def Records.blockCleared (c : Records) : Records where
  transport := c.transport
  frame := .absent
  reply := c.reply
  decodable := false
  loaded := none
  result := none
  last := none
  unchecked := []

/-- What answered the command before does not answer it now that it is asked again (rule R153 (e), "the command in
question"; assumption 8). -/
def stillAnswers (i : Instr) (x : Option Instr) : Option Instr := if x = some i then none else x

/-- The reply keeps its bytes when its command is asked again: they remain those of one successful read. -/
def Reply.askedAnew (i : Instr) : Reply → Reply
  | .received x bs => .received (stillAnswers i x) bs
  | .pending => .pending

/-- The unchecked outputs after an operation: what it leaves replaces the earlier output of that kind (rule R142). -/
def uncheckedAfter (i : Instr) (unchecked : List Output) : List Output :=
  match outputOf i with
  | none => unchecked
  | some o => if canRaise i then o :: unchecked.filter (· ≠ o) else unchecked.filter (· ≠ o)

/-- The records after an operation that left the state `u`: a new frame is to be taken, and a decode's result answers what
the loaded bytes answer. What was loaded stays loaded (rule R37). -/
def Records.afterIssue (c : Records) (i : Instr) (u : State) : Records :=
  if i = .clr then c.blockCleared
  else
    { transport := c.transport
      frame := if i.buildsFrame then newFrameUse u else c.frame
      reply := c.reply.askedAnew i
      decodable := c.decodable
      loaded := stillAnswers i c.loaded
      result := if decodeLength i = none then stillAnswers i c.result else c.loaded
      last := outputOf i
      unchecked := uncheckedAfter i c.unchecked }

/-- After an undefined `OPSEL` the code in `ERR` belongs to no output (rule R126). -/
def Records.afterUndefined (c : Records) : Records := { c with last := none }

/-- After `LOADRX` the bytes in `RX` answer the command that the reply answers, if they are of the reply; a decode of them is
none for an exchange whose write failed before (rule R37, rule R41). -/
def Records.afterLoad (c : Records) (bs : List Byte) : Records :=
  { c with
    frame := if c.frame = .writeFailed then .finished else c.frame
    decodable := c.reply.mayLoad bs
    loaded := if c.reply.covers bs then c.reply.command else none }

/-- Reading `STATUS` checks the error of the most recent operation (rule R136, rule R137). -/
def Records.afterLook (c : Records) (r : HostReg) : Records :=
  if r = .status then { c with unchecked := c.unchecked.filter fun o => some o ≠ c.last } else c

/-- After `open`: whether it succeeds or fails, the host works with the transport from here on. -/
def Records.afterConnect (c : Records) (succeeds : Bool) : Records :=
  { c with transport := if succeeds then .opened else .closed }

/-- After `write` the frame has been taken; a failure of it is a failure of the exchange (rule R41). -/
def Records.afterSend (c : Records) (succeeds : Bool) : Records :=
  { c with frame := if succeeds then .sent else .writeFailed }

/-- After `read`: the bytes answer the command whose frame stands in `TX` (rule R53). A read that fails fails the exchange
(rule R41, rule R153 (d)); what `RX` holds, and what an earlier read gave, stays what it was (rule R37). -/
def Records.afterReceive (c : Records) (answer : Option (List Byte)) (s : State) : Records :=
  match answer with
  | none => { c with frame := .readFailed }
  | some bs => { c with frame := .finished, reply := .received (parseFrame s.frame).toOption bs }

/-- After `close` no response is due any more; everything else the host knows it knows still. -/
def Records.afterDisconnect (c : Records) : Records :=
  { c with transport := .closed, frame := if c.frame = .sent then .finished else c.frame }

/-- The records after an action that left the state `u`. -/
def Records.after (c : Records) (a : HostAction) (u : State) : Records :=
  match a with
  | .issue opsel arg =>
    match decodeIssue opsel arg with
    | .ok i => c.afterIssue i u
    | .error _ => c.afterUndefined
  | .loadRx bs => c.afterLoad bs
  | .reset => c.blockCleared
  | .read r => c.afterLook r
  | .connect succeeds => c.afterConnect succeeds
  | .send succeeds => c.afterSend succeeds
  | .receive answer => c.afterReceive answer u
  | .disconnect => c.afterDisconnect
  | .consume r _ => c.afterLook r

/-- The state with the host's records brought up to date. -/
def State.recorded (u : State) (a : HostAction) : State := u.setRecords (u.records.after a u)

/-- The outcome of an action with the host's records brought up to date. -/
def keepRecords (a : HostAction) : Host.Outcome State Fault Refusal → Host.Outcome State Fault Refusal
  | .next u => .next (u.recorded a)
  | .fault f => .fault f
  | .refused r => .refused r

end Sys2Proof.Machine
end

