-- ==== Sys2Proof/Machine/HostActions.lean ====
section
/-! DEFINITION. What the host does besides issuing an operation: taking the next action (rule R9), `LOADRX` (rule R18), the
reset input (rule R151), reads (rule R35), the transport actions (rule R41) and the use of an output. Whether an action
breaks a duty of the host is told before it is performed, in Machine/Records.lean. -/

namespace Sys2Proof.Machine

/-- The next element of the host's action list and the state with the rest of it (rule R9, rule R20); the command
port is sampled here, once, and not stored (rule R19, rule R39). -/
def takeAction (s : State) : Option (HostAction × State) :=
  match s.program with
  | [] => none
  | a :: rest => some (a, s.setProgram rest)

/-- Nothing asked for: the block "waits for the next" (rule R20) and nothing changes (assumption 6). -/
def awaitHost (s : State) : Host.Outcome State Fault Refusal := .next s

/-- The 18 bytes `LOADRX` writes: the bytes given, then zeros (rule R18, rule R33). -/
def paddedLoad (bs : List Byte) : List Byte := bs ++ List.replicate (Config.rxSize - bs.length) 0

/-- `LOADRX(bs)` (rule R18): `RX` and `RXLEN`, "and changes nothing else"; more than 18 bytes are refused. -/
def performLoadRx (bs : List Byte) (s : State) : Host.Outcome State Fault Refusal :=
  if bs.length ≤ Config.rxSize then
    .next (s.setReceived (s.rx.writeBytes 0 (paddedLoad bs)) (BitVec.ofNat 5 bs.length))
  else .refused .loadTooLong

/-- The reset input (rule R150, rule R151). -/
def performReset (s : State) : Host.Outcome State Fault Refusal := .next s.cleared

/-- What the host reads, widened with zeros to 32 bits (Table ST-1, rule R12, rule R13). -/
def readHostReg (s : State) : HostReg → BitVec 32
  | .status => s.status.setWidth 32
  | .matched => (BitVec.ofBool s.matched).setWidth 32
  | .crc => s.crc.setWidth 32
  | .txLen => s.txLen.setWidth 32
  | .expLen => s.expLen.setWidth 32
  | .rxLen => s.rxLen.setWidth 32
  | .w g => s.w[g].setWidth 32
  | .tx i => (s.tx.read i.val).setWidth 32
  | .rx i => (s.rx.read i.val).setWidth 32
  | .f j => s.f j
  | .major => s.major.setWidth 32
  | .minor => s.minor.setWidth 32
  | .ready => (BitVec.ofBool s.ready).setWidth 32

/-- A read "has no side effect", whatever is read and whenever (rule R35, rule R158). -/
def performRead (_ : HostReg) (s : State) : Host.Outcome State Fault Refusal := .next s

/-- `open` (rule R41), which succeeds or fails; a second session would be a second host, which is no run of the machine
(rule R34, U2). -/
def performConnect (s : State) : Host.Outcome State Fault Refusal :=
  if s.records.connected = false then .next s else .refused .secondHost

/-- `write` (rule R41), which succeeds or fails: "the block never sees it" (rule R35). -/
def performSend (s : State) : Host.Outcome State Fault Refusal := .next s

/-- The transport exchange of rule R41: the bytes are the `EXPLEN` bytes of the command last encoded. -/
def answersCommand (s : State) (bs : List Byte) : Bool :=
  decide (s.expLen.toNat ≠ 0) && decide (bs.length = s.expLen.toNat)

/-- `read` (rule R41): "exactly n bytes | fails", and the block never sees it. -/
def performReceive (answer : Option (List Byte)) (s : State) : Host.Outcome State Fault Refusal :=
  match answer with
  | none => .next s
  | some bs => if answersCommand s bs then .next s else .refused .replyLength

/-- `close` (rule R41). -/
def performDisconnect (s : State) : Host.Outcome State Fault Refusal := .next s

/-- Using an output changes nothing in the block (rule R35). -/
def performConsume (_ : HostReg) (s : State) : Host.Outcome State Fault Refusal := .next s

/-- The host action that asks for the instruction of a table row's bits: an 8-bit row is issued as it stands with
`ARG = 0`, defined or not; a wire frame is issued as the operation that builds it. Bits that are no command frame are
asked for by no action (rule R52 (c), (d); assumption 7). -/
def actionsOfTableWord (nbits w : Nat) : List HostAction :=
  if nbits = 8 then [.issue (BitVec.ofNat 8 w) 0]
  else
    match decodeTableWord nbits w with
    | some i => [.issue (encode i).1 (encode i).2]
    | none => []

end Sys2Proof.Machine
end

