-- ==== Sys2Proof/Machine/Step.lean ====
section
/-! DEFINITION. One step: the host's next action, performed atomically (rule R9, rule R34), in the order of the list
(rule R37). -/

namespace Sys2Proof.Machine

/-- What a host action does. An issued operation is decoded by its `OPSEL` (rule R47) and executed; everything else is
in Machine/HostActions.lean and Machine/System.lean. -/
def performAction (a : HostAction) (s : State) : Host.Outcome State Fault Refusal :=
  match a with
  | .issue opsel arg =>
    match decodeIssue opsel arg with
    | .ok i => exec i s
    | .error _ => raiseUndefinedOpsel s
  | .loadRx bs => performLoadRx bs s
  | .reset => performReset s
  | .read r => performRead r s
  | .connect _ => performConnect s
  | .send _ => performSend s
  | .receive answer => performReceive answer s
  | .disconnect => performDisconnect s
  | .consume r _ => performConsume r s

/-- One host action: a breach of the host's duties is its fault (rule R153), and otherwise the action is performed and the
host's records follow it. -/
def step (s : State) : Host.Outcome State Fault Refusal :=
  match takeAction s with
  | none => awaitHost s
  | some (a, t) =>
    match contractFault a t with
    | some f => .fault f
    | none => keepRecords a (performAction a t)

/-- The state whose very next step issues the instruction of a table row's bits; the block has no place a program
is fetched from, so the action goes to the head of the host's list (rule R20; assumption 7). In it the
host has never called `open` (assumption 8), so that the instruction runs whatever a host owes. -/
def State.withFetchWord (s : State) (nbits w : Nat) : State :=
  (s.setRecords { s.records with transport := .unused }).setProgram (actionsOfTableWord nbits w ++ s.program)

end Sys2Proof.Machine
end

