-- ==== Sys2Proof/Safety.lean ====
section
/-! DEFINITION. What claims speak of: the legal values of rule R25 with the contents the operation rules promise, how an
outcome ends, and which host actions break the host's contract of rule R153. -/

namespace Sys2Proof.Machine

/-- The legal values of rule R25, word for word: `TXLEN` only 0, 2, 5; `EXPLEN` only 0, 3, 18; `RXLEN` only 0 to 18;
`ERR` 0 to 3 (every value of two bits); `NGRP` only 0, 1, 2, 6; `VALID = 1` exactly when `NGRP != 0`. -/
structure LegalValues (s : State) : Prop where
  txLen_legal : s.txLen.toNat = 0 ∨ s.txLen.toNat = 2 ∨ s.txLen.toNat = 5
  expLen_legal : s.expLen.toNat = 0 ∨ s.expLen.toNat = 3 ∨ s.expLen.toNat = 18
  rxLen_legal : s.rxLen.toNat ≤ 18
  ngrp_legal : s.ngrp.toNat = 0 ∨ s.ngrp.toNat = 1 ∨ s.ngrp.toNat = 2 ∨ s.ngrp.toNat = 6
  valid_iff : s.valid = true ↔ s.ngrp.toNat ≠ 0

/-- What else holds of every state that host actions can produce: both buffers are canonical and hold zeros beyond
the current length (rule R16, rule R18, D22), the reserved bit reads 0 (rule R15), words beyond the committed groups are
0 (rule R11, rule R104), and what `TX` holds is a command frame whose response length is in `EXPLEN` (rule R16, rule
R17, rule R53), or there is no frame and no response is expected. -/
structure WellKept (s : State) : Prop where
  tx_wf : s.tx.wf = true
  rx_wf : s.rx.wf = true
  tx_tail : s.tx.below s.txLen.toNat = true
  rx_tail : s.rx.below s.rxLen.toNat = true
  reserved_zero : s.reservedBit = false
  words_tail : ∀ g : Fin 6, s.ngrp.toNat ≤ g.val → s.w[g] = 0
  no_frame : s.txLen.toNat = 0 → s.expLen.toNat = 0
  frame_parses : s.txLen.toNat ≠ 0 →
    ∃ i, parseFrame s.frame = .ok i ∧ responseLength i = s.expLen.toNat

/-- What the host's records say is so (assumption 8): there is no frame exactly when `TXLEN = 0`, a reply has the length of
the command it answers (rule R17, rule R41), bytes that may be decoded have a length that a decode operation has (rule
R153 (d), rule R102), those that answer a command are its reply or one float pair of a measurement, and a result that
stands has the groups of what was loaded (rule R11). -/
structure RecordsTrue (s : State) (c : Records) : Prop where
  frame_absent : c.frame = .absent ↔ s.txLen.toNat = 0
  reply_length : ∀ bs, c.reply.bytes = some bs → bs.length = 3 ∨ bs.length = 18
  reply_answers : ∀ i bs, c.reply = .received (some i) bs → bs.length = responseLength i
  decodable_length : c.decodable = true → s.rxLen.toNat = 3 ∨ s.rxLen.toNat = 6 ∨ s.rxLen.toNat = 18
  loaded_decodable : c.loaded ≠ none → c.decodable = true
  loaded_length : ∀ i, c.loaded = some i → s.rxLen.toNat = responseLength i ∨ i = .rdmeas ∧ s.rxLen.toNat = 6
  result_groups : ∀ i, c.result = some i → s.valid = true →
    3 * s.ngrp.toNat = responseLength i ∨ i = .rdmeas ∧ s.ngrp.toNat = 2

/-- The invariant: of the block's state, and of the host's records. -/
structure BlockInv (s : State) : Prop where
  legal : LegalValues s
  kept : WellKept s
  records : RecordsTrue s s.records

/-- The step goes on. -/
def completes (o : Host.Outcome State Fault Refusal) : Prop := ∃ t, o = .next t

/-- The two states agree on every item of Table ST-1 (rule R10); the host's fields are not the block's. -/
def sameBlock (s t : State) : Prop :=
  (s.setProgram []).setRecords Records.initial = (t.setProgram []).setRecords Records.initial

/-- What a host may not do, rule by rule: rule R153 (c) and (d) from the host's first `open` on, (e) and (f) always (assumption 8),
the uses that the block's own state already shows to be empty, and the three actions that do not exist. -/
inductive HostBreach (s : State) : HostAction → Prop where
  /-- (c): an encode operation or `CLR` overwrites a frame not yet taken. -/
  | overwritesFrame (opsel arg i) : s.records.bound = true → decodeIssue opsel arg = .ok i →
      (i.buildsFrame = true ∨ i = .clr) → s.records.frame = .untaken → HostBreach s (.issue opsel arg)
  /-- (d): a decode of bytes that are not those of a successful read, or of another length. -/
  | decodesNoReply (opsel arg i n) : s.records.bound = true → decodeIssue opsel arg = .ok i →
      decodeLength i = some n → (s.records.decodable = false ∨ s.rxLen.toNat ≠ n) → HostBreach s (.issue opsel arg)
  /-- (d): a decode after a failed read. -/
  | decodesAfterFailedRead (opsel arg i n) : s.records.bound = true → decodeIssue opsel arg = .ok i →
      decodeLength i = some n → s.records.frame = .readFailed → HostBreach s (.issue opsel arg)
  /-- Rule R41: the decode for an exchange whose write failed. -/
  | decodesFailedExchange (opsel arg i n) : s.records.bound = true → decodeIssue opsel arg = .ok i →
      decodeLength i = some n → s.records.frame = .writeFailed → s.expLen.toNat = n → HostBreach s (.issue opsel arg)
  /-- (d): loading other bytes than those of one successful read, and not the 6 bytes of rule R102. -/
  | loadsOtherBytes (bs) : s.records.bound = true → bs.length ≤ 18 → s.records.reply.bytes ≠ some bs →
      bs.length ≠ 6 → HostBreach s (.loadRx bs)
  /-- Rule R18: no such load. -/
  | loadsTooMuch (bs) : 18 < bs.length → HostBreach s (.loadRx bs)
  /-- (e): a data word or a view with `VALID = 0`. -/
  | usesNoResult (r q) : r.output = some .result → s.valid = false → HostBreach s (.consume r q)
  /-- Rule R121: a float view after a decode that carries no measurement in it. -/
  | usesNoMeasurement (j q) : ¬ (s.ngrp.toNat = 6 ∨ s.ngrp.toNat = 2 ∧ j = 0) → HostBreach s (.consume (.f j) q)
  /-- Rule R13: a named view after another decode than `DEC3`. -/
  | usesNoWordView (r q) : r = .major ∨ r = .minor ∨ r = .ready → s.ngrp.toNat ≠ 1 → HostBreach s (.consume r q)
  /-- Rule R152: a frame that is not there. -/
  | usesNoFrame (r q) : r.output = some .frame → s.txLen.toNat = 0 → HostBreach s (.consume r q)
  /-- (e), U6: a result that answers another command, or a view that is not of this command. -/
  | usesOtherAnswer (r q) : r.output = some .result →
      (s.records.result ≠ some q ∨ r.answers q = false) → HostBreach s (.consume r q)
  /-- (f): an output whose error was not checked. -/
  | usesUnchecked (r q o) : r.output = some o → o ∈ s.records.unchecked → HostBreach s (.consume r q)
  /-- (f): "never send `TX` when `TXLEN = 0`". -/
  | sendsNothing (b) : s.txLen.toNat = 0 → HostBreach s (.send b)
  /-- (f): a frame whose error was not checked. -/
  | sendsUnchecked (b) : .frame ∈ s.records.unchecked → HostBreach s (.send b)
  /-- U10, rule R41: a frame that was given to the transport before. -/
  | sendsAgain (b) : s.records.frame ≠ .untaken → HostBreach s (.send b)
  /-- Rule R41: a transport action without a handle. -/
  | sendsUnconnected (b) : s.records.connected = false → HostBreach s (.send b)
  | receivesUnconnected (x) : s.records.connected = false → HostBreach s (.receive x)
  | disconnectsUnconnected : s.records.connected = false → HostBreach s .disconnect
  /-- Rule R17, rule R41: a transport read with no response due. -/
  | receivesNothingDue (x) : (s.records.frame ≠ .sent ∨ s.expLen.toNat = 0) → HostBreach s (.receive x)
  /-- Rule R41: no such answer of the transport. -/
  | receivesOtherLength (bs) : bs.length ≠ s.expLen.toNat → HostBreach s (.receive (some bs))
  /-- (a): a second host. -/
  | connectsTwice (b) : s.records.connected = true → HostBreach s (.connect b)

end Sys2Proof.Machine
end

