-- ==== Sys2Proof/Certificates/Slice0/Obligations.lean ====
section
/-! DEFINITION. The statements for the provers. Each docstring names the rule of spec/ it formalises; the premises on a
state (`wf` of a buffer, a legal `RXLEN`, `BlockInv`) are parts of the invariant that `EveryStepKeepsInvariant` states. -/

namespace Sys2Proof.Claims

open Sys2Proof.Machine

/-! ## What a class of operations leaves unchanged -/

/-- What every encode operation leaves: everything but `TX[0..4]`, `TXLEN`, `EXPLEN` and `STATUS.ERR` (rule R75). -/
structure KeepsAllButFrame (s t : State) : Prop where
  crc : t.crc = s.crc
  words : t.w = s.w
  rxLen : t.rxLen = s.rxLen
  rxBytes : ∀ a, t.rx.read a = s.rx.read a
  txOutside : ∀ a, ¬ (0 ≤ a ∧ a < 0 + 5) → t.tx.read a = s.tx.read a
  valid : t.valid = s.valid
  matched : t.matched = s.matched
  ngrp : t.ngrp = s.ngrp
  reservedBit : t.reservedBit = s.reservedBit
  program : t.program = s.program
  records : t.records = s.records

/-- What every decode operation leaves: everything but `W`, `VALID`, `NGRP` and `ERR` (rule R101). -/
structure KeepsAllButResult (s t : State) : Prop where
  crc : t.crc = s.crc
  txLen : t.txLen = s.txLen
  expLen : t.expLen = s.expLen
  rxLen : t.rxLen = s.rxLen
  txBytes : ∀ a, t.tx.read a = s.tx.read a
  rxBytes : ∀ a, t.rx.read a = s.rx.read a
  matched : t.matched = s.matched
  reservedBit : t.reservedBit = s.reservedBit
  program : t.program = s.program
  records : t.records = s.records

/-- What `CRC8`, `CHK` and an undefined `OPSEL` all leave: everything but `CRC`, `MATCH` and `ERR`. -/
structure KeepsBuffersAndResult (s t : State) : Prop where
  txLen : t.txLen = s.txLen
  expLen : t.expLen = s.expLen
  rxLen : t.rxLen = s.rxLen
  words : t.w = s.w
  txBytes : ∀ a, t.tx.read a = s.tx.read a
  rxBytes : ∀ a, t.rx.read a = s.rx.read a
  valid : t.valid = s.valid
  ngrp : t.ngrp = s.ngrp
  reservedBit : t.reservedBit = s.reservedBit
  program : t.program = s.program
  records : t.records = s.records

/-! ## What an operation leaves behind -/

/-- `TX` holds these five bytes, with these lengths and this error code. -/
structure FrameIs (t : State) (bytes : List Byte) (txLen expLen : Nat) (e : ErrorCode) : Prop where
  bytes_eq : t.tx.readBytes 0 5 = bytes
  txLen_eq : t.txLen.toNat = txLen
  expLen_eq : t.expLen.toNat = expLen
  err_eq : t.err = e.code

/-- The command's code is `opsel` with any `ARG`, and it leaves the constant frame `rh rl`, no error, everything else
as it was (`emit2` of rule R75). -/
def BuildsFixedFrame (opsel : Byte) (i : Instr) (rh rl : Byte) (expLen : Nat) : Prop :=
  (∀ arg, decodeIssue opsel arg = .ok i) ∧
  ∀ s : State, s.tx.wf = true →
    ∃ t, exec i s = .next t ∧ FrameIs t [rh, rl, 0, 0, 0] 2 expLen .none ∧ KeepsAllButFrame s t

/-- The command leaves the frame `rh rl ph pl crc8(ph, pl)` (`emit5` of rule R75), no error. -/
def BuildsParameterFrame (i : Instr) (rh rl ph pl : Byte) : Prop :=
  ∀ s : State, s.tx.wf = true →
    ∃ t, exec i s = .next t ∧ FrameIs t [rh, rl, ph, pl, crc8 ph pl] 5 0 .none ∧ KeepsAllButFrame s t

/-- The command is refused: no frame exists afterwards (`refuse` of rule R75, rule R91). -/
def RefusesOperand (i : Instr) : Prop :=
  ∀ s : State, s.tx.wf = true →
    ∃ t, exec i s = .next t ∧ FrameIs t [0, 0, 0, 0, 0] 0 0 .illegalOperation ∧ KeepsAllButFrame s t

/-- The first `k` groups of `RX` satisfy the checksum invariant of rule R46. -/
def GroupsIntact (s : State) (k : Nat) : Prop :=
  ∀ g < k, s.rx.read (3 * g + 2) = crc8 (s.rx.read (3 * g)) (s.rx.read (3 * g + 1))

/-- The first `k` groups of a byte sequence satisfy the checksum invariant of rule R46. -/
def BytesIntact (bs : List Byte) (k : Nat) : Prop :=
  ∀ g < k, bs.getD (3 * g + 2) 0 = crc8 (bs.getD (3 * g) 0) (bs.getD (3 * g + 1) 0)

/-- The result of a passing decode of `k` groups (rule R11, rule R100). -/
structure DecodePassed (s t : State) (k : Nat) : Prop where
  words : ∀ g : Fin 6, t.w[g] = if g.val < k then s.rx.read (3 * g.val) ++ s.rx.read (3 * g.val + 1) else 0
  valid : t.valid = true
  ngrp : t.ngrp.toNat = k
  err : t.err = ErrorCode.none.code

/-- The result of a failing decode (rule R100). -/
structure DecodeFailed (t : State) (e : ErrorCode) : Prop where
  words : ∀ g : Fin 6, t.w[g] = 0
  valid : t.valid = false
  ngrp : t.ngrp.toNat = 0
  err : t.err = e.code

/-- A decode operation of `k` groups: in every state it completes, and the length and the checksums decide how
(rule R100, rule R135). -/
def Decodes (i : Instr) (k : Nat) : Prop :=
  ∀ s : State, ∃ t, exec i s = .next t ∧ KeepsAllButResult s t ∧
    (s.rxLen.toNat ≠ 3 * k → DecodeFailed t .lengthError) ∧
    (s.rxLen.toNat = 3 * k → ¬ GroupsIntact s k → DecodeFailed t .checksumError) ∧
    (s.rxLen.toNat = 3 * k → GroupsIntact s k → DecodePassed s t k)

/-- The three decode operations with their numbers of groups. -/
def decoders : List (Instr × Nat) := [(.dec3, 1), (.dec6, 2), (.dec18, 6)]

/-- The six bytes that carry a float pattern with correct checksums (rule R31, rule R46, rule R115). -/
def floatPair (v : Float32Bits) : List Byte :=
  [v.extractLsb' 24 8, v.extractLsb' 16 8, crc8 (v.extractLsb' 24 8) (v.extractLsb' 16 8),
   v.extractLsb' 8 8, v.extractLsb' 0 8, crc8 (v.extractLsb' 8 8) (v.extractLsb' 0 8)]

/-- `k` host actions, one after another (rule R37), stopping at the first stop. -/
def afterSteps : Nat → State → Host.Outcome State Fault Refusal
  | 0, s => .next s
  | k + 1, s =>
    match step s with
    | .next t => afterSteps k t
    | .fault f => .fault f
    | .refused x => .refused x

end Sys2Proof.Claims

open Sys2Proof Sys2Proof.Machine Sys2Proof.Claims

/-! ## Reset, the step, the operation codes -/

/-- Rule R23 (its values are the spec's decision D11): after reset every item of Table ST-1 is zero, hence every view
too, and `CLR` produces the same state. -/
def Obligations.ResetLeavesEveryItemZero : Prop :=
  State.reset.status = 0 ∧ State.reset.crc = 0 ∧ State.reset.txLen = 0 ∧ State.reset.expLen = 0 ∧
  State.reset.rxLen = 0 ∧ (∀ g : Fin 6, State.reset.w[g] = 0) ∧
  (∀ a, State.reset.tx.read a = 0) ∧ (∀ a, State.reset.rx.read a = 0) ∧
  State.reset.valid = false ∧ State.reset.matched = false ∧ State.reset.err = 0 ∧ State.reset.ngrp = 0 ∧
  (∀ j, State.reset.f j = 0) ∧ State.reset.major = 0 ∧ State.reset.minor = 0 ∧ State.reset.ready = false ∧
  ∀ s, ∃ t, exec .clr s = .next t ∧ sameBlock t State.reset

/-- Rule R125: `CLR`, issued as 0x00 with any `ARG`, completes in every state and leaves the reset state. -/
def Obligations.ClrRestoresResetState : Prop :=
  (∀ arg, decodeIssue 0x00 arg = .ok .clr) ∧
  ∀ s : State, ∃ t, exec .clr s = .next t ∧ t.status = 0 ∧ t.crc = 0 ∧ t.txLen = 0 ∧ t.expLen = 0 ∧ t.rxLen = 0 ∧
    (∀ g : Fin 6, t.w[g] = 0) ∧ (∀ a, t.tx.read a = 0) ∧ (∀ a, t.rx.read a = 0) ∧
    t.program = s.program ∧ t.records = s.records ∧ sameBlock t State.reset

/-- Rule R151: the reset input and `CLR` are two equivalent ways to the reset state. The host's records (assumption 8) follow
both in the same way, so that the two steps are one where `CLR` breaks no duty. -/
def Obligations.ResetInputEqualsClr : Prop :=
  ∀ (s : State) (rest : List HostAction), s.program = .reset :: rest →
    ∃ t, exec .clr (s.setProgram rest) = .next t ∧ sameBlock t State.reset ∧ t.program = rest ∧
      step s = .next (t.setRecords s.records.blockCleared) ∧
      ∀ (s' : State) (arg : Word), s'.setProgram [] = s.setProgram [] → s'.program = .issue 0x00 arg :: rest →
        s.records.bound = false ∨ s.records.frame ≠ .untaken → step s' = step s

/-- Rule R9, rule R20: when the host's next action issues a code that decodes to `i`, the step is `exec i` with that
action taken off the host's list. That the list stands in the state is the model's choice (assumption 3), and so is
what the step adds (assumption 8): the host's records, and, once the host has called `open`, the check of its duties. -/
def Obligations.StepRunsIssuedOperation : Prop :=
  ∀ (s : State) (opsel : Byte) (arg : Word) (rest : List HostAction) (i : Instr),
    s.program = .issue opsel arg :: rest → decodeIssue opsel arg = .ok i →
    (s.records.bound = true → ∀ f, s.records.issueFault i s = some f → step s = .fault f) ∧
    (s.records.bound = false ∨ s.records.issueFault i s = none →
      step s = match exec i (s.setProgram rest) with
        | .next u => .next (u.setRecords (s.records.afterIssue i u))
        | .fault f => .fault f
        | .refused x => .refused x)

/-- The pseudocode of rule R126: an `OPSEL` of none of the 19 codes sets `ERR` to 3 and changes nothing else, whatever
`ARG` is. That this is a next state and not a stop is the model's reading (assumption 4): the rule also says "A model
should refuse or fault here". The host's records only say that `ERR` now belongs to no output (assumption 8). -/
def Obligations.UndefinedOpselOnlyRaises : Prop :=
  ∀ (s : State) (opsel : Byte) (arg : Word) (rest : List HostAction),
    s.program = .issue opsel arg :: rest →
    (0x06 ≤ opsel.toNat ∧ opsel.toNat ≤ 0x0F) ∨ 0x1D ≤ opsel.toNat →
    ∃ t, step s = .next t ∧ t.err = ErrorCode.illegalOperation.code ∧ t.crc = s.crc ∧ t.matched = s.matched ∧
      t.records = s.records.afterUndefined ∧
      KeepsBuffersAndResult ((s.setProgram rest).setRecords t.records) t

/-- Table E-4 of rule R47: each of the 19 codes, with every `ARG`, decodes to its operation and its operand, and every
other code to none. -/
def Obligations.OpselCodesDecodeAsTabulated : Prop :=
  (∀ arg, decodeIssue 0x00 arg = .ok .clr ∧ decodeIssue 0x01 arg = .ok (.crc8 arg) ∧
    decodeIssue 0x02 arg = .ok (.chk arg) ∧ decodeIssue 0x03 arg = .ok .dec3 ∧ decodeIssue 0x04 arg = .ok .dec6 ∧
    decodeIssue 0x05 arg = .ok .dec18 ∧ decodeIssue 0x10 arg = .ok .rdfw ∧ decodeIssue 0x11 arg = .ok .srst ∧
    decodeIssue 0x12 arg = .ok .rdint ∧ decodeIssue 0x13 arg = .ok (.wrint arg) ∧
    decodeIssue 0x14 arg = .ok .rdasc ∧ decodeIssue 0x15 arg = .ok (.wrasc arg) ∧
    decodeIssue 0x16 arg = .ok .rdfrc ∧ decodeIssue 0x17 arg = .ok (.wrfrc arg) ∧
    decodeIssue 0x18 arg = .ok .rdtoff ∧ decodeIssue 0x19 arg = .ok (.startc arg) ∧
    decodeIssue 0x1A arg = .ok .rdrdy ∧ decodeIssue 0x1B arg = .ok .stopm ∧ decodeIssue 0x1C arg = .ok .rdmeas) ∧
  ∀ (opsel : Byte) (arg : Word), (0x06 ≤ opsel.toNat ∧ opsel.toNat ≤ 0x0F) ∨ 0x1D ≤ opsel.toNat →
    decodeIssue opsel arg = .error .undefinedOpsel

/-- A sanity statement: wire frames written out from Table E-4 decode to the commands they stand for. -/
def Obligations.WrittenOutFramesDecode : Prop :=
  parseFrame [0xD1, 0x00] = .ok .rdfw ∧ parseFrame [0x03, 0x00] = .ok .rdmeas ∧
  parseFrame [0x46, 0x00, 0x00, 0x02, 0xE3] = .ok (.wrint 2) ∧
  parseFrame [0x00, 0x10, 0x03, 0xCC, 0x96] = .ok (.startc 972) ∧
  decodeTableWord 8 0x05 = some .dec18 ∧ decodeTableWord 16 0x5306 = some .rdasc

/-! ## Encodings -/

/-- Rule R47: the block's decoder reads back every operation the encoder of the host format writes. -/
def Obligations.IssueEncodingRoundTrip : Prop :=
  ∀ i : Instr, decodeIssue (encode i).1 (encode i).2 = .ok i

/-- Rules R45, R48, R52, R53: `parse_frame` and the wire encoder are inverse to each other on the well-formed encode
operations; no two commands share a frame and no other byte sequence is a frame. -/
def Obligations.WireFramesDecodeAndEncodeAgree : Prop :=
  (∀ (i : Instr) (bs : List Byte), i.wellFormed = true → wireFrame i = some bs → parseFrame bs = .ok i) ∧
  ∀ (i : Instr) (bs : List Byte), parseFrame bs = .ok i → i.wellFormed = true ∧ wireFrame i = some bs

/-- Rule R53: for every encode operation that raises no error, `parse_frame(TX[0..TXLEN-1])` returns that operation
and its operand; the frame in `TX` is the one Table E-4 writes. -/
def Obligations.BuiltFrameParsesBack : Prop :=
  ∀ (i : Instr) (s : State), i.buildsFrame = true → i.wellFormed = true → s.tx.wf = true →
    ∃ t, exec i s = .next t ∧ t.err = ErrorCode.none.code ∧ wireFrame i = some t.frame ∧ parseFrame t.frame = .ok i

/-- Rule R45, rule R47: numbered as the table numbers it, byte 0 most significant, every frame is read back. The numbering
is the model's reading of the table (assumption 7). -/
def Obligations.TableWordOfFrameDecodes : Prop :=
  ∀ (i : Instr) (bs : List Byte), i.wellFormed = true → wireFrame i = some bs →
    decodeTableWord (8 * bs.length) (wireNumber bs) = some i

/-! ## The checksum function -/

/-- Rule R66 (a): the table form (assumption 1: the procedure of rule R65 is general knowledge). -/
def Obligations.ChecksumEqualsTableForm : Prop :=
  ∀ a b : Byte, crc8 a b = crcTable (crcTable (0xFF ^^^ a) ^^^ b)

/-- Rule R66 (b): the polynomial-remainder form (assumption 1). -/
def Obligations.ChecksumEqualsPolynomialRemainder : Prop := ∀ a b : Byte, crc8 a b = crc8Poly a b

/-- Rule R71: over the three bytes of a group the procedure of rule R65 ends with 0 exactly when the checksum is right
(assumption 1). -/
def Obligations.ResidueIsZeroExactlyOnIntactGroups : Prop :=
  ∀ dh dl ck : Byte, crcOver [dh, dl, ck] = 0 ↔ ck = crc8 dh dl

/-- Rule R70: altering one of the two data bytes always changes the checksum, and for each first byte every checksum
comes from exactly one second byte (so 256 data pairs share each checksum). Assumption 1 for the procedure itself. -/
def Obligations.SingleByteChangeAltersChecksum : Prop :=
  (∀ a a' b : Byte, a ≠ a' → crc8 a b ≠ crc8 a' b) ∧ (∀ a b b' : Byte, b ≠ b' → crc8 a b ≠ crc8 a b') ∧
  ∀ a ck : Byte, ∃ b, crc8 a b = ck ∧ ∀ b', crc8 a b' = ck → b' = b

/-! ## The checksum operations -/

/-- Rule R67: `CRC8` leaves `crc8(ARG[15:8], ARG[7:0])` in `CRC` and `ERR = 0`, for every `ARG`, and changes nothing else. -/
def Obligations.CrcOperationComputesChecksum : Prop :=
  ∀ (arg : Word) (s : State), decodeIssue 0x01 arg = .ok (.crc8 arg) ∧
    ∃ t, exec (.crc8 arg) s = .next t ∧ t.crc = crc8 (arg.extractLsb' 8 8) (arg.extractLsb' 0 8) ∧
      t.err = ErrorCode.none.code ∧ t.matched = s.matched ∧ KeepsBuffersAndResult s t

/-- Rule R68: `CHK` compares one group, or raises `LengthError` when it does not lie inside the loaded bytes. -/
def Obligations.ChkComparesOneGroup : Prop :=
  ∀ (g : Word) (s : State), s.rxLen.toNat ≤ 18 → decodeIssue 0x02 g = .ok (.chk g) ∧
    ∃ t, exec (.chk g) s = .next t ∧ t.crc = s.crc ∧ KeepsBuffersAndResult s t ∧
      (3 * g.toNat + 3 > s.rxLen.toNat → t.matched = false ∧ t.err = ErrorCode.lengthError.code) ∧
      (3 * g.toNat + 3 ≤ s.rxLen.toNat →
        t.matched = (s.rx.read (3 * g.toNat + 2) ==
          crc8 (s.rx.read (3 * g.toNat)) (s.rx.read (3 * g.toNat + 1))) ∧
        t.err = ErrorCode.none.code)

/-! ## The encode operations -/

/-- Rules R76, R77, R78, R80, R82, R84, R86, R87, R88: the nine commands without a parameter. -/
def Obligations.FixedCommandsBuildTheirFrames : Prop :=
  BuildsFixedFrame 0x10 .rdfw 0xD1 0x00 3 ∧ BuildsFixedFrame 0x11 .srst 0xD3 0x04 0 ∧
  BuildsFixedFrame 0x12 .rdint 0x46 0x00 3 ∧ BuildsFixedFrame 0x14 .rdasc 0x53 0x06 3 ∧
  BuildsFixedFrame 0x16 .rdfrc 0x52 0x04 3 ∧ BuildsFixedFrame 0x18 .rdtoff 0x54 0x03 3 ∧
  BuildsFixedFrame 0x1A .rdrdy 0x02 0x02 3 ∧ BuildsFixedFrame 0x1B .stopm 0x01 0x04 0 ∧
  BuildsFixedFrame 0x1C .rdmeas 0x03 0x00 18

/-- Rules R83, R85, R89: `WRFRC` and `STARTC` (also spelled `WRPRESS`) with every 16-bit parameter. -/
def Obligations.ParameterCommandsBuildTheirFrames : Prop :=
  ∀ p : Word,
    decodeIssue 0x17 p = .ok (.wrfrc p) ∧ decodeIssue 0x19 p = .ok (.startc p) ∧ Instr.wrpress p = .startc p ∧
    BuildsParameterFrame (.wrfrc p) 0x52 0x04 (p.extractLsb' 8 8) (p.extractLsb' 0 8) ∧
    BuildsParameterFrame (.startc p) 0x00 0x10 (p.extractLsb' 8 8) (p.extractLsb' 0 8)

/-- Rules R79, R81, R91: `WRINT` and `WRASC`, with a frame whose payload-high is 0x00 inside the range and refused
outside it (the refusal is the spec's decision D8). -/
def Obligations.RangedCommandsBuildOrRefuse : Prop :=
  ∀ p : Word,
    decodeIssue 0x13 p = .ok (.wrint p) ∧ decodeIssue 0x15 p = .ok (.wrasc p) ∧
    (1 ≤ p.toNat → p.toNat ≤ 255 → BuildsParameterFrame (.wrint p) 0x46 0x00 0x00 (p.extractLsb' 0 8)) ∧
    (p.toNat = 0 ∨ p.toNat > 255 → RefusesOperand (.wrint p)) ∧
    (p.toNat ≤ 1 → BuildsParameterFrame (.wrasc p) 0x53 0x06 0x00 (p.extractLsb' 0 8)) ∧
    (p.toNat > 1 → RefusesOperand (.wrasc p))

/-- Rule R57 (and the `EXPLEN` column of Table E-4): which frame length goes with which expected response. -/
def Obligations.FrameAndResponseLengthsGoTogether : Prop :=
  ∀ (i : Instr) (s : State), i.buildsFrame = true → i.wellFormed = true →
    ∃ t, exec i s = .next t ∧ t.expLen.toNat = responseLength i ∧
      (t.txLen.toNat = 5 ∧ t.expLen.toNat = 0 ∨
       t.txLen.toNat = 2 ∧ (i = .srst ∨ i = .stopm) ∧ t.expLen.toNat = 0 ∨
       t.txLen.toNat = 2 ∧ i = .rdmeas ∧ t.expLen.toNat = 18 ∨
       t.txLen.toNat = 2 ∧ i ≠ .srst ∧ i ≠ .stopm ∧ i ≠ .rdmeas ∧ t.expLen.toNat = 3)

/-- Rule R90: the parameter comes back from its two bytes, the checksum covers exactly them, and the tail of the frame
is a group that `CHK` accepts once it is loaded. -/
def Obligations.ParameterRoundTripsThroughFrame : Prop :=
  ∀ (p : Word) (s : State), s.tx.wf = true → s.rx.wf = true → ∀ i ∈ [Instr.startc p, Instr.wrfrc p],
    ∃ t u v, exec i s = .next t ∧
      t.tx.read 2 ++ t.tx.read 3 = p ∧ t.tx.read 4 = crc8 (t.tx.read 2) (t.tx.read 3) ∧
      performLoadRx (t.tx.readBytes 2 3) t = .next u ∧ exec (.chk 0) u = .next v ∧ v.matched = true ∧ v.err = 0

/-! ## The decode operations -/

/-- Rule R101: `DEC3`, with the views of `W[0]` that follow from it (rule R13). -/
def Obligations.Dec3DecodesOneGroup : Prop :=
  (∀ arg, decodeIssue 0x03 arg = .ok .dec3) ∧ Decodes .dec3 1 ∧
  ∀ s : State, s.rxLen.toNat = 3 → s.rx.read 2 = crc8 (s.rx.read 0) (s.rx.read 1) →
    ∃ t, exec .dec3 s = .next t ∧ t.w[0] = s.rx.read 0 ++ s.rx.read 1 ∧
      t.major = s.rx.read 0 ∧ t.minor = s.rx.read 1 ∧ (t.ready = true ↔ s.rx.read 1 = 0x01)

/-- Rule R102: `DEC6`, with the float view that follows from it (rule R115). -/
def Obligations.Dec6DecodesOneFloatPair : Prop :=
  (∀ arg, decodeIssue 0x04 arg = .ok .dec6) ∧ Decodes .dec6 2 ∧
  ∀ s : State, s.rxLen.toNat = 6 → s.rx.read 2 = crc8 (s.rx.read 0) (s.rx.read 1) →
    s.rx.read 5 = crc8 (s.rx.read 3) (s.rx.read 4) →
    ∃ t, exec .dec6 s = .next t ∧ t.valid = true ∧
      t.f 0 = s.rx.read 0 ++ s.rx.read 1 ++ s.rx.read 3 ++ s.rx.read 4 ∧ t.f 1 = 0 ∧ t.f 2 = 0

/-- Rule R103: `DEC18`, with the three float views that follow from it (rule R115, rule R118). -/
def Obligations.Dec18DecodesMeasurement : Prop :=
  (∀ arg, decodeIssue 0x05 arg = .ok .dec18) ∧ Decodes .dec18 6 ∧
  ∀ s : State, s.rxLen.toNat = 18 → GroupsIntact s 6 →
    ∃ t, exec .dec18 s = .next t ∧ t.valid = true ∧ (∀ j : Fin 3, t.f j = rxFloatBits s j.val) ∧
      t.channel .co2 = rxFloatBits s 0 ∧ t.channel .temperature = rxFloatBits s 1 ∧
      t.channel .humidity = rxFloatBits s 2

/-- Rule R104: after any decode exactly one of two things holds, the whole response or nothing of it. -/
def Obligations.DecodeIsAllOrNothing : Prop :=
  ∀ d ∈ decoders, ∀ s t : State, exec d.1 s = .next t →
    (DecodePassed s t d.2 ∧ GroupsIntact s d.2 ∧ s.rxLen.toNat = 3 * d.2 ∧ ¬ DecodeFailed t .checksumError ∧
      ¬ DecodeFailed t .lengthError) ∨
    ((DecodeFailed t .checksumError ∨ DecodeFailed t .lengthError) ∧ (∀ j, t.f j = 0) ∧
      ¬ DecodePassed s t d.2)

/-- Rule R107: if a response of the right length passes, then changing any one of its bytes to any other value makes the
same decode raise `ChecksumError`. It rests on the bijection of rule R70 and so on the procedure of rule R65
(assumption 1). -/
def Obligations.SingleByteCorruptionIsCaught : Prop :=
  ∀ d ∈ decoders, ∀ (s : State) (bs : List Byte) (j : Nat) (x : Byte),
    s.rx.wf = true → bs.length = 3 * d.2 → BytesIntact bs d.2 → j < 3 * d.2 → x ≠ bs.getD j 0 →
    (∃ u t, performLoadRx bs s = .next u ∧ exec d.1 u = .next t ∧ DecodePassed u t d.2) ∧
    ∃ u t, performLoadRx (bs.set j x) s = .next u ∧ exec d.1 u = .next t ∧ DecodeFailed t .checksumError

/-- Rule R106 (with the checksums of assumption 1): an all-zero buffer of the right length raises `ChecksumError`, and a
buffer of groups `FF FF AC` passes. -/
def Obligations.DecoderRejectsZerosAcceptsOnes : Prop :=
  ∀ d ∈ decoders, ∀ s : State, s.rxLen.toNat = 3 * d.2 →
    ((∀ a < 3 * d.2, s.rx.read a = 0) →
      ∃ t, exec d.1 s = .next t ∧ DecodeFailed t .checksumError) ∧
    ((∀ g < d.2, s.rx.read (3 * g) = 0xFF ∧ s.rx.read (3 * g + 1) = 0xFF ∧ s.rx.read (3 * g + 2) = 0xAC) →
      ∃ t, exec d.1 s = .next t ∧ DecodePassed s t d.2)

/-- Rule R37, rule R103: after `LOADRX(bs)` the decode reads exactly `bs`; 18 bytes of intact groups pass and give
`F[j] = bs[6j] ++ bs[6j+1] ++ bs[6j+3] ++ bs[6j+4]`. -/
def Obligations.LoadedMeasurementIsDelivered : Prop :=
  ∀ (s : State) (bs : List Byte), s.rx.wf = true → bs.length = 18 → BytesIntact bs 6 →
    ∃ u t, performLoadRx bs s = .next u ∧ exec .dec18 u = .next t ∧ t.valid = true ∧ t.err = 0 ∧
      ∀ j : Fin 3, t.f j = bs.getD (6 * j.val) 0 ++ bs.getD (6 * j.val + 1) 0 ++
        bs.getD (6 * j.val + 3) 0 ++ bs.getD (6 * j.val + 4) 0

/-! ## Floats -/

/-- Rule R117: all 2^32 patterns are delivered unchanged, one float by `DEC6` and three by `DEC18`. -/
def Obligations.FloatPatternsAreDeliveredUnchanged : Prop :=
  (∀ (s : State) (v : Float32Bits), s.rx.wf = true →
    ∃ u t, performLoadRx (floatPair v) s = .next u ∧ exec .dec6 u = .next t ∧ t.valid = true ∧ t.f 0 = v) ∧
  ∀ (s : State) (a b c : Float32Bits), s.rx.wf = true →
    ∃ u t, performLoadRx (floatPair a ++ floatPair b ++ floatPair c) s = .next u ∧ exec .dec18 u = .next t ∧
      t.valid = true ∧ t.channel .co2 = a ∧ t.channel .temperature = b ∧ t.channel .humidity = c

/-- Rule R116: the value of every pattern, by its sign, exponent and fraction (assumption 2: the rule takes the layout
from general knowledge). -/
def Obligations.FloatValueFollowsFields : Prop :=
  ∀ v : Float32Bits,
    let sgn : Rat := if v.getLsbD 31 then -1 else 1
    let e : Nat := (v.extractLsb' 23 8).toNat
    let frac : Nat := (v.extractLsb' 0 23).toNat
    (1 ≤ e → e ≤ 254 →
      (readFloat v).toRat = some (sgn * (2 : Rat) ^ ((e : Int) - 127) * (1 + (frac : Rat) / 2 ^ 23))) ∧
    (e = 0 → (readFloat v).toRat = some (sgn * (2 : Rat) ^ (-126 : Int) * ((frac : Rat) / 2 ^ 23))) ∧
    (e = 0 → frac = 0 → readFloat v = .finite (v.getLsbD 31) 0 (-149)) ∧
    (e = 255 → frac = 0 → readFloat v = .infinity (v.getLsbD 31)) ∧
    (e = 255 → frac ≠ 0 → readFloat v = .nan (v.getLsbD 31) (v.getLsbD 22) (v.extractLsb' 0 22))

/-- Rule R12: `F[j][31:16] = W[2j]` and `F[j][15:0] = W[2j+1]`, always. -/
def Obligations.FloatViewHalvesAreWords : Prop :=
  ∀ (s : State) (j : Fin 3),
    (s.f j).extractLsb' 16 16 = s.w[2 * j.val] ∧ (s.f j).extractLsb' 0 16 = s.w[2 * j.val + 1]

/-! ## Whole-machine rules -/

/-- Rule R18: `LOADRX` writes `RX` and `RXLEN` and changes nothing else, and more than 18 bytes are refused. Once the host has
called `open` it is held to rule R153 (d) first (`OneReplyIsLoadedAndDecoded`; assumption 8). -/
def Obligations.LoadRxWritesOnlyReceiveBuffer : Prop :=
  ∀ (s : State) (bs : List Byte) (rest : List HostAction), s.program = .loadRx bs :: rest → s.rx.wf = true →
    (bs.length ≤ 18 → contractFault (.loadRx bs) s = none → ∃ t, step s = .next t ∧ t.rxLen.toNat = bs.length ∧
      (∀ a < 18, t.rx.read a = bs.getD a 0) ∧ (∀ a, ¬ a < 18 → t.rx.read a = s.rx.read a) ∧
      t.status = s.status ∧ t.crc = s.crc ∧ t.txLen = s.txLen ∧ t.expLen = s.expLen ∧ t.w = s.w ∧
      (∀ a, t.tx.read a = s.tx.read a) ∧ t.program = rest ∧ t.records = s.records.afterLoad bs) ∧
    (s.records.bound = false → contractFault (.loadRx bs) s = none) ∧
    (¬ bs.length ≤ 18 → step s = .refused .loadTooLong)

/-- Tables ST-1 and ST-2 (rules R10, R11, R14 to R18): which operations write which item; every other operation leaves it. -/
def Obligations.EachItemHasItsWriters : Prop :=
  ∀ (i : Instr) (s t : State), exec i s = .next t → i ≠ .clr →
    ((∀ a, i ≠ .crc8 a) → t.crc = s.crc) ∧
    ((∀ g, i ≠ .chk g) → t.matched = s.matched) ∧
    ((∀ d ∈ decoders, i ≠ d.1) → t.w = s.w ∧ t.valid = s.valid ∧ t.ngrp = s.ngrp) ∧
    (i.buildsFrame = false → t.txLen = s.txLen ∧ t.expLen = s.expLen ∧ ∀ a, t.tx.read a = s.tx.read a) ∧
    (∀ a, ¬ (0 ≤ a ∧ a < 0 + 5) → t.tx.read a = s.tx.read a) ∧
    t.rxLen = s.rxLen ∧ (∀ a, t.rx.read a = s.rx.read a) ∧
    t.reservedBit = s.reservedBit ∧ t.program = s.program ∧ t.records = s.records

/-- Rule R21, rule R18: no hidden state. What an operation writes depends on `ARG`, `RXLEN` and the loaded bytes alone:
two states that agree on those give the same results, whatever else they hold. -/
def Obligations.ResultsDependOnInputsOnly : Prop :=
  ∀ (i : Instr) (s s' t t' : State), s.tx.wf = true → s'.tx.wf = true →
    s.rxLen = s'.rxLen → (∀ a < s.rxLen.toNat, s.rx.read a = s'.rx.read a) →
    exec i s = .next t → exec i s' = .next t' →
    t.err = t'.err ∧
    (i.buildsFrame = true → t.tx.readBytes 0 5 = t'.tx.readBytes 0 5 ∧ t.txLen = t'.txLen ∧ t.expLen = t'.expLen) ∧
    ((∃ d ∈ decoders, i = d.1) → t.w = t'.w ∧ t.valid = t'.valid ∧ t.ngrp = t'.ngrp) ∧
    ((∃ g, i = .chk g) → t.matched = t'.matched) ∧ ((∃ a, i = .crc8 a) → t.crc = t'.crc)

/-- Rule R21: issuing the same operation twice in a row leaves the state as the first issue left it. -/
def Obligations.OperationsAreIdempotent : Prop :=
  ∀ (i : Instr) (s t : State), s.tx.wf = true → exec i s = .next t → exec i t = .next t

/-- Rule R142: the thirteen operations that raise nothing, for any state and operand, and what each other one can raise. -/
def Obligations.ErrorsComeFromTheirOperations : Prop :=
  ∀ (i : Instr) (s t : State), exec i s = .next t →
    t.err = ErrorCode.none.code ∨
    (t.err = ErrorCode.lengthError.code ∧ ((∃ g, i = .chk g) ∨ ∃ d ∈ decoders, i = d.1)) ∨
    (t.err = ErrorCode.checksumError.code ∧ ∃ d ∈ decoders, i = d.1) ∨
    (t.err = ErrorCode.illegalOperation.code ∧ ((∃ p, i = .wrint p) ∨ ∃ p, i = .wrasc p))

/-- Rule R143: every operation is available in every legal state; none stops the machine. -/
def Obligations.EveryOperationCompletes : Prop :=
  ∀ (i : Instr) (s : State), LegalValues s → completes (exec i s)

/-- Rules R34, R143, R153, R158 with assumptions 5 and 8: in a legal state a step stops exactly at a breach of the host's
duties, or at an action that does not exist; the block itself never stops. -/
def Obligations.OnlyHostBreachesStopTheMachine : Prop :=
  ∀ s : State, LegalValues s →
    (completes (step s) ↔ ∀ a rest, s.program = a :: rest → ¬ HostBreach s a)

/-- Rules R9, R35, R105, R153 with assumptions 5 and 8 (the model's choice): a read always completes; reading, using and
sending change nothing in the block; using a result with `VALID = 0` and sending a frame of length 0 are faults. -/
def Obligations.HostUsesChangeNothing : Prop :=
  ∀ (s : State) (rest : List HostAction),
    (∀ r, s.program = .read r :: rest → step s = .next ((s.setProgram rest).setRecords (s.records.afterLook r))) ∧
    (∀ r q t, s.program = .consume r q :: rest → step s = .next t → sameBlock t s ∧ t.program = rest) ∧
    (∀ r q, s.program = .consume r q :: rest → r.output = none →
      step s = .next ((s.setProgram rest).setRecords (s.records.afterLook r))) ∧
    (∀ r q, s.program = .consume r q :: rest → r.output = some .result → s.valid = false →
      step s = .fault .resultNotValid) ∧
    (∀ b t, s.program = .send b :: rest → step s = .next t → sameBlock t s ∧ t.program = rest) ∧
    (∀ b, s.program = .send b :: rest → s.txLen.toNat = 0 → step s = .fault .emptyFrame)

/-! ## The host's contract (rule R153 (c) to (f); that (c) and (d) bind from the host's first `open` on is assumption 8) -/

/-- Rule R121: the float views are concatenations of `W` at all times, they are used as a measurement only with `VALID = 1` and
`NGRP` 2 (`F[0]` only) or 6, by the answer to `RDMEAS` (rule R118), and after a failing decode, `CLR` and reset they are
0x00000000, which reads as +0.0. That any other use is a fault is the model's choice (assumptions 5, 8). -/
def Obligations.FloatViewsCarryMeasurementsOnlyWhenDecoded : Prop :=
  (∀ (s : State) (rest : List HostAction) (j : Fin 3) (q : Instr), s.program = .consume (.f j) q :: rest →
    (s.valid = false → step s = .fault .resultNotValid) ∧
    (s.valid = true → ¬ (s.ngrp.toNat = 6 ∨ s.ngrp.toNat = 2 ∧ j = 0) → step s = .fault .resultNotCarried) ∧
    (s.valid = true → (s.ngrp.toNat = 6 ∨ s.ngrp.toNat = 2 ∧ j = 0) → .result ∉ s.records.unchecked →
      (s.records.result = some .rdmeas → q = .rdmeas → step s = .next (s.setProgram rest)) ∧
      (¬ (s.records.result = some .rdmeas ∧ q = .rdmeas) → step s = .fault .resultOfOtherCommand))) ∧
  (∀ (s : State) (j : Fin 3), s.f j = s.w[2 * j.val] ++ s.w[2 * j.val + 1]) ∧
  (∀ d ∈ decoders, ∀ s t : State, exec d.1 s = .next t → t.valid = false → ∀ j, t.f j = 0x00000000) ∧
  (∀ s t : State, exec .clr s = .next t → ∀ j, t.f j = 0x00000000) ∧ (∀ j, State.reset.f j = 0x00000000) ∧
  readFloat 0x00000000 = .finite false 0 (-149)

/-- Rule R153 (c): the frame is taken from `TX` before another encode operation or `CLR` overwrites it; a breach is a fault
of the host, and otherwise the operation runs, an encode operation leaving a frame to be taken if it built one. -/
def Obligations.FrameIsTakenBeforeItIsOverwritten : Prop :=
  ∀ (s : State) (rest : List HostAction) (opsel : Byte) (arg : Word) (i : Instr),
    s.program = .issue opsel arg :: rest → decodeIssue opsel arg = .ok i → s.records.bound = true →
    i.buildsFrame = true ∨ i = .clr →
    (s.records.frame = .untaken → step s = .fault .frameNotTaken) ∧
    (s.records.frame ≠ .untaken → ∃ u k, exec i (s.setProgram rest) = .next u ∧ step s = .next (u.setRecords k) ∧
      (k.frame = .untaken ↔ u.txLen.toNat ≠ 0) ∧ (k.frame = .absent ↔ u.txLen.toNat = 0))

/-- Rule R153 (d): `RX` is loaded with exactly the bytes of one successful transport read (or with 6 bytes on the host's own
account, rule R102), the decode is of that length, and none is issued after a failed read, nor for an exchange whose write
failed (rule R41). A session open or not makes no difference. -/
def Obligations.OneReplyIsLoadedAndDecoded : Prop :=
  ∀ (s : State) (rest : List HostAction), s.records.bound = true →
    (∀ bs, s.program = .loadRx bs :: rest → bs.length ≤ 18 →
      (s.records.reply.bytes = some bs ∨ bs.length = 6 → ∃ u k, performLoadRx bs (s.setProgram rest) = .next u ∧
        step s = .next (u.setRecords k) ∧ k.decodable = true ∧
        (∀ i, s.records.reply = .received (some i) bs → k.loaded = some i) ∧
        ∀ got, s.records.reply = .received (some .rdmeas) got → bs ∈ floatPairsOf got → k.loaded = some .rdmeas) ∧
      (s.records.reply.bytes ≠ some bs → bs.length ≠ 6 → step s = .fault .loadNotOneReply)) ∧
    (∀ d ∈ decoders, ∀ opsel arg, s.program = .issue opsel arg :: rest → decodeIssue opsel arg = .ok d.1 →
      (s.records.decodable = false ∨ s.rxLen.toNat ≠ 3 * d.2 ∨ s.records.frame = .readFailed ∨
          s.records.frame = .writeFailed ∧ s.expLen.toNat = 3 * d.2 → step s = .fault .decodeOutOfTurn) ∧
      (s.records.decodable = true → s.rxLen.toNat = 3 * d.2 → s.records.frame ≠ .readFailed →
          (s.records.frame = .writeFailed → s.expLen.toNat ≠ 3 * d.2) →
        ∃ u k, exec d.1 (s.setProgram rest) = .next u ∧ step s = .next (u.setRecords k) ∧
          k.result = s.records.loaded))

/-- Rule R37: after `LOADRX(bs)` the next decode reads exactly `bs`, whatever encode operation, `CRC8` or `CHK` stands between,
for a host that never called `open` and for one that keeps rule R153; a write that failed before makes no difference. -/
def Obligations.NextDecodeReadsLoadedBytes : Prop :=
  ∀ d ∈ decoders, ∀ (i : Instr) (bs : List Byte) (s : State) (rest : List HostAction),
    decodeLength i = none → i ≠ .clr → bs.length = 3 * d.2 → s.rx.wf = true →
    (s.records.bound = true → (s.records.reply.bytes = some bs ∨ bs.length = 6) ∧
      (i.buildsFrame = true → s.records.frame ≠ .untaken) ∧ (i.buildsFrame = false → s.records.frame ≠ .readFailed)) →
    s.program = [.loadRx bs, .issue (encode i).1 (encode i).2, .issue (encode d.1).1 (encode d.1).2] ++ rest →
    ∃ t, afterSteps 3 s = .next t ∧ t.program = rest ∧
      (BytesIntact bs d.2 → t.valid = true ∧ t.err = ErrorCode.none.code ∧
        ∀ k : Fin 6, k.val < d.2 → t.w[k] = bs.getD (3 * k.val) 0 ++ bs.getD (3 * k.val + 1) 0) ∧
      (¬ BytesIntact bs d.2 → DecodeFailed t .checksumError)

/-- Rule R41: a write or a read may fail, and the block never sees it. After a failed read no decode is issued (rule R153 (d)),
after a failed write none for that exchange, until an encode operation begins another, or, after a failed write, the host
loads other bytes (which decodes and reads count as the exchange's own: assumptions 8 and 13). -/
def Obligations.FailedExchangeIsNotDecoded : Prop :=
  ∀ (s : State) (rest : List HostAction),
    (s.records.connected = true →
      (s.program = .send false :: rest → s.txLen.toNat ≠ 0 → .frame ∉ s.records.unchecked → s.records.frame = .untaken →
        step s = .next ((s.setProgram rest).setRecords { s.records with frame := .writeFailed })) ∧
      (s.program = .receive none :: rest → s.records.frame = .sent → s.expLen.toNat ≠ 0 →
        step s = .next ((s.setProgram rest).setRecords { s.records with frame := .readFailed })) ∧
      (s.records.frame = .writeFailed ∨ s.records.frame = .readFailed →
        ∀ answer, s.program = .receive answer :: rest → step s = .fault .noReplyExpected)) ∧
    (s.records.bound = true →
      (∀ d ∈ decoders, ∀ opsel arg, s.program = .issue opsel arg :: rest → decodeIssue opsel arg = .ok d.1 →
        s.records.frame = .readFailed ∨ s.records.frame = .writeFailed ∧ s.expLen.toNat = 3 * d.2 →
        step s = .fault .decodeOutOfTurn) ∧
      (s.records.frame = .writeFailed ∨ s.records.frame = .readFailed →
        ∀ opsel arg i, s.program = .issue opsel arg :: rest → decodeIssue opsel arg = .ok i → i.buildsFrame = true →
        ∃ u k, exec i (s.setProgram rest) = .next u ∧ step s = .next (u.setRecords k) ∧ k.frame ≠ .writeFailed ∧
          k.frame ≠ .readFailed) ∧
      ∀ bs t, s.records.frame = .writeFailed → s.program = .loadRx bs :: rest → step s = .next t →
        t.records.frame = .finished)

/-- Rule R37, rule R41: a write or a read that fails bars decodes in its own exchange only. Bytes loaded before it are read by
the decode that follows the next encode operation, whatever command that builds. -/
def Obligations.LoadedBytesOutliveFailedExchange : Prop :=
  ∀ d ∈ decoders, ∀ (i j : Instr) (bs : List Byte) (s : State) (rest : List HostAction),
    ∀ failure ∈ [[HostAction.send false], [.send true, .receive none]],
    responseLength i ≠ 0 → j.buildsFrame = true → bs.length = 3 * d.2 → s.tx.wf = true → s.rx.wf = true →
    s.records.connected = true → (s.records.reply.bytes = some bs ∨ bs.length = 6) → s.records.frame ≠ .untaken →
    s.program = .loadRx bs :: .issue (encode i).1 (encode i).2 ::
      (failure ++ .issue (encode j).1 (encode j).2 :: .issue (encode d.1).1 (encode d.1).2 :: rest) →
    ∃ t, afterSteps (failure.length + 4) s = .next t ∧ t.program = rest ∧
      (BytesIntact bs d.2 → t.valid = true ∧ t.err = ErrorCode.none.code ∧
        ∀ k : Fin 6, k.val < d.2 → t.w[k] = bs.getD (3 * k.val) 0 ++ bs.getD (3 * k.val + 1) 0) ∧
      (¬ BytesIntact bs d.2 → DecodeFailed t .checksumError)

/-- Rule R153 (e), rule R13, U6: a result is used only as the answer to the command whose reply the decode answered, and a
named view only for its command and only after `DEC3`. -/
def Obligations.ResultIsUsedForItsCommandOnly : Prop :=
  ∀ (s : State) (rest : List HostAction) (r : HostReg) (q : Instr),
    s.program = .consume r q :: rest → s.valid = true → .result ∉ s.records.unchecked →
    (∀ g, r = .w g → (s.records.result = some q → step s = .next (s.setProgram rest)) ∧
      (s.records.result ≠ some q → step s = .fault .resultOfOtherCommand)) ∧
    (∀ v ∈ [(HostReg.major, Instr.rdfw), (.minor, .rdfw), (.ready, .rdrdy)], r = v.1 →
      (s.ngrp.toNat ≠ 1 → step s = .fault .resultNotCarried) ∧
      (s.ngrp.toNat = 1 → s.records.result = some q → q = v.2 → step s = .next (s.setProgram rest)) ∧
      (s.ngrp.toNat = 1 → ¬ (s.records.result = some q ∧ q = v.2) → step s = .fault .resultOfOtherCommand))

/-- Rule R153 (e): building a command again makes an earlier answer to it one that does not answer "the command in question"
(the model's reading, assumption 8); the bytes read and loaded remain those of one successful read (rule R153 (d)). -/
def Obligations.CommandBuiltAnewHasNoAnswer : Prop :=
  ∀ (s t : State) (rest : List HostAction) (opsel : Byte) (arg : Word) (i : Instr),
    s.program = .issue opsel arg :: rest → decodeIssue opsel arg = .ok i → i.buildsFrame = true → step s = .next t →
    t.records.result ≠ some i ∧ t.records.loaded ≠ some i ∧ t.records.reply.command ≠ some i ∧
    (∀ j ≠ i, (s.records.result = some j → t.records.result = some j) ∧
      (s.records.loaded = some j → t.records.loaded = some j) ∧
      (s.records.reply.command = some j → t.records.reply.command = some j)) ∧
    t.records.reply.bytes = s.records.reply.bytes ∧ t.records.decodable = s.records.decodable

/-- Rule R153 (f), rule R137, rule R142: the output of an operation that can raise is unusable until `STATUS` is read, and that
read checks the most recent operation. -/
def Obligations.ErrorsAreCheckedBeforeUse : Prop :=
  (∀ (s : State) (rest : List HostAction),
    (∀ b, s.program = .send b :: rest → s.records.connected = true → s.txLen.toNat ≠ 0 →
      .frame ∈ s.records.unchecked → step s = .fault .errorNotChecked) ∧
    ∀ r o q, s.program = .consume r q :: rest → r.output = some o → r.emptyFault s = none →
      o ∈ s.records.unchecked → step s = .fault .errorNotChecked) ∧
  (∀ (s t : State) (rest : List HostAction) (opsel : Byte) (arg : Word) (i : Instr) (o : Output),
    s.program = .issue opsel arg :: .read .status :: rest → decodeIssue opsel arg = .ok i →
    canRaise i = true → outputOf i = some o → step s = .next t →
    o ∈ t.records.unchecked ∧ ∃ u, step t = .next u ∧ sameBlock u t ∧ o ∉ u.records.unchecked)

/-- Rule R16, rule R41, U10: a frame is given to the transport once, whether the write succeeds or fails; a second time is
a fault of the host (after a failed write that is the model's choice, assumption 13). -/
def Obligations.FrameIsSentOnce : Prop :=
  ∀ (s : State) (rest : List HostAction) (b : Bool), s.program = .send b :: rest → s.txLen.toNat ≠ 0 →
    (s.records.connected = false → step s = .fault .notConnected) ∧
    (s.records.connected = true → .frame ∉ s.records.unchecked →
      (s.records.frame = .untaken →
        step s = .next ((s.setProgram rest).setRecords { s.records with frame := if b then .sent else .writeFailed })) ∧
      (s.records.frame ≠ .untaken → step s = .fault .frameSentTwice))

/-- Rule R17, rule R41: after a command with a response is sent, one transport read gives exactly `EXPLEN` bytes, which answer
the command in `TX`; with none due a read is a fault (of a repeated read that is the model's choice, assumption 13), and
another number of bytes is no answer of the transport. -/
def Obligations.TransportReadAnswersSentCommand : Prop :=
  ∀ (s : State) (rest : List HostAction) (answer : Option (List Byte)), s.program = .receive answer :: rest →
    (s.records.connected = false → step s = .fault .notConnected) ∧
    (s.records.connected = true →
      (s.records.frame ≠ .sent ∨ s.expLen.toNat = 0 → step s = .fault .noReplyExpected) ∧
      (s.records.frame = .sent → s.expLen.toNat ≠ 0 → ∀ bs, answer = some bs →
        (bs.length ≠ s.expLen.toNat → step s = .refused .replyLength) ∧
        (bs.length = s.expLen.toNat → ∀ i, parseFrame s.frame = .ok i →
          step s = .next ((s.setProgram rest).setRecords
            { s.records with frame := .finished, reply := .received (some i) bs }))))

/-- Rule R34, rule R41, rule R153 (a): one session at a time, and opening one may fail; connecting and disconnecting leave the
block as it is. -/
def Obligations.OneSessionAtATime : Prop :=
  ∀ (s : State) (rest : List HostAction),
    (∀ b, s.program = .connect b :: rest →
      (s.records.connected = false →
        step s = .next ((s.setProgram rest).setRecords
          { s.records with transport := if b then .opened else .closed })) ∧
      (s.records.connected = true → step s = .refused .secondHost)) ∧
    (s.program = .disconnect :: rest →
      (s.records.connected = false → step s = .fault .notConnected) ∧
      (s.records.connected = true → ∃ k, step s = .next ((s.setProgram rest).setRecords k) ∧ k.connected = false))

/-- Rule R153 (c) to (f), U10: closing a session, and opening another, makes no duty go away: the host stays bound (which the
statements on (c) and (d) speak of), and a frame to be taken, a frame that was given to the transport, a failure, an error
not checked, what is loaded and what it answers stand as they stood. Only a response not yet read is due no more
(assumption 13). -/
def Obligations.DutiesOutliveTheSession : Prop :=
  ∀ (s : State) (rest : List HostAction), s.records.connected = true →
    (s.program = .disconnect :: rest →
      step s = .next ((s.setProgram rest).setRecords
        { s.records with
          transport := .closed, frame := if s.records.frame = .sent then .finished else s.records.frame }) ∧
      ∀ t, step s = .next t → t.records.bound = true) ∧
    (s.program = .disconnect :: .connect true :: rest →
      afterSteps 2 s = .next ((s.setProgram rest).setRecords
        { s.records with frame := if s.records.frame = .sent then .finished else s.records.frame }))

/-- Rule R41 with rule R153: a connected host that keeps its duties is never stopped. For every command with a response and
every reply of its length, building, sending, reading, loading the reply (or one float pair of a measurement, rule R102),
decoding, checking and using run to the end if what is loaded is intact, and the words used are those loaded. -/
def Obligations.ExchangeByContractDeliversReply : Prop :=
  ∀ d ∈ decoders, ∀ (i : Instr) (reply bs : List Byte) (g : Fin 6) (s : State) (rest : List HostAction),
    responseLength i ≠ 0 → reply.length = responseLength i → bs = reply ∨ i = .rdmeas ∧ bs ∈ floatPairsOf reply →
    bs.length = 3 * d.2 → BytesIntact bs d.2 →
    s.tx.wf = true → s.rx.wf = true → s.records.connected = true → s.records.frame ≠ .untaken →
    s.program = [.issue (encode i).1 (encode i).2, .send true, .receive (some reply), .loadRx bs,
      .issue (encode d.1).1 (encode d.1).2, .read .status, .consume (.w g) i] ++ rest →
    ∃ t, afterSteps 7 s = .next t ∧ t.program = rest ∧ t.valid = true ∧ t.err = 0 ∧
      ∀ k : Fin 6, k.val < d.2 → t.w[k] = bs.getD (3 * k.val) 0 ++ bs.getD (3 * k.val + 1) 0

/-! ## Where things stand -/

/-- Table ST-2 of rule R15 and Table X-1 of rule R131: where the fields stand in `STATUS`, and the numbers of the errors. -/
def Obligations.StatusFieldsStandAsTabulated : Prop :=
  (∀ s : State, s.status.toNat =
    s.valid.toNat + 2 * s.matched.toNat + 4 * s.err.toNat + 16 * s.ngrp.toNat + 128 * s.reservedBit.toNat) ∧
  ErrorCode.none.code.toNat = 0 ∧ ErrorCode.checksumError.code.toNat = 1 ∧
  ErrorCode.lengthError.code.toNat = 2 ∧ ErrorCode.illegalOperation.code.toNat = 3

/-- Assumption 7 (the model's choice): the bits of a table row, placed as the next action of a host that never called `open`,
run as the instruction they decode to; the host's records follow it (assumption 8). -/
def Obligations.PlacedWordRunsItsInstruction : Prop :=
  ∀ (s : State) (nbits w : Nat) (i : Instr), decodeTableWord nbits w = some i →
    step (s.withFetchWord nbits w) =
      match exec i (s.setRecords { s.records with transport := .unused }) with
      | .next u => .next (u.setRecords (Records.afterIssue { s.records with transport := .unused } i u))
      | .fault f => .fault f
      | .refused x => .refused x

/-! ## Invariants -/

/-- Rule R25: the legal values are preserved by every host action. -/
def Obligations.EveryStepKeepsLegalValues : Prop :=
  ∀ s t : State, LegalValues s → step s = .next t → LegalValues t

/-- Rules R11, R15 to R18, R25, R53: every step keeps the whole invariant: canonical buffers, zeros beyond the current
lengths, the reserved bit, cleared words beyond `NGRP`, a frame in `TX` that goes with `EXPLEN`, and records of the host
(assumption 8) that are so. -/
def Obligations.EveryStepKeepsInvariant : Prop :=
  ∀ s t : State, BlockInv s → step s = .next t → BlockInv t

/-- Rule R25: the invariant holds after reset. -/
def Obligations.ResetSatisfiesInvariant : Prop := BlockInv State.reset
end

