-- ==== Sys2Proof/Laws/State.lean ====
section
/-! SUPPORT. One lemma per field per update of the state, true by rfl, so that no proof unfolds a record update.
The fields of `STATUS` are in Laws/Flags.lean. -/

namespace Sys2Proof.Machine

variable (s : State)

/-! ## setCrc -/

@[simp] theorem State.setCrc_status (c : Byte) : (s.setCrc c).status = s.status := rfl
@[simp] theorem State.setCrc_crc (c : Byte) : (s.setCrc c).crc = c := rfl
@[simp] theorem State.setCrc_txLen (c : Byte) : (s.setCrc c).txLen = s.txLen := rfl
@[simp] theorem State.setCrc_expLen (c : Byte) : (s.setCrc c).expLen = s.expLen := rfl
@[simp] theorem State.setCrc_rxLen (c : Byte) : (s.setCrc c).rxLen = s.rxLen := rfl
@[simp] theorem State.setCrc_w (c : Byte) : (s.setCrc c).w = s.w := rfl
@[simp] theorem State.setCrc_tx (c : Byte) : (s.setCrc c).tx = s.tx := rfl
@[simp] theorem State.setCrc_rx (c : Byte) : (s.setCrc c).rx = s.rx := rfl
@[simp] theorem State.setCrc_program (c : Byte) : (s.setCrc c).program = s.program := rfl
@[simp] theorem State.setCrc_records (c : Byte) : (s.setCrc c).records = s.records := rfl

/-! ## setWords -/

@[simp] theorem State.setWords_status (v : Vector Word 6) : (s.setWords v).status = s.status := rfl
@[simp] theorem State.setWords_crc (v : Vector Word 6) : (s.setWords v).crc = s.crc := rfl
@[simp] theorem State.setWords_txLen (v : Vector Word 6) : (s.setWords v).txLen = s.txLen := rfl
@[simp] theorem State.setWords_expLen (v : Vector Word 6) : (s.setWords v).expLen = s.expLen := rfl
@[simp] theorem State.setWords_rxLen (v : Vector Word 6) : (s.setWords v).rxLen = s.rxLen := rfl
@[simp] theorem State.setWords_w (v : Vector Word 6) : (s.setWords v).w = v := rfl
@[simp] theorem State.setWords_tx (v : Vector Word 6) : (s.setWords v).tx = s.tx := rfl
@[simp] theorem State.setWords_rx (v : Vector Word 6) : (s.setWords v).rx = s.rx := rfl
@[simp] theorem State.setWords_program (v : Vector Word 6) : (s.setWords v).program = s.program := rfl
@[simp] theorem State.setWords_records (v : Vector Word 6) : (s.setWords v).records = s.records := rfl

/-! ## setFrame -/

@[simp] theorem State.setFrame_status (m : Memory) (n : BitVec 3) (k : BitVec 5) : (s.setFrame m n k).status = s.status := rfl
@[simp] theorem State.setFrame_crc (m : Memory) (n : BitVec 3) (k : BitVec 5) : (s.setFrame m n k).crc = s.crc := rfl
@[simp] theorem State.setFrame_txLen (m : Memory) (n : BitVec 3) (k : BitVec 5) : (s.setFrame m n k).txLen = n := rfl
@[simp] theorem State.setFrame_expLen (m : Memory) (n : BitVec 3) (k : BitVec 5) : (s.setFrame m n k).expLen = k := rfl
@[simp] theorem State.setFrame_rxLen (m : Memory) (n : BitVec 3) (k : BitVec 5) : (s.setFrame m n k).rxLen = s.rxLen := rfl
@[simp] theorem State.setFrame_w (m : Memory) (n : BitVec 3) (k : BitVec 5) : (s.setFrame m n k).w = s.w := rfl
@[simp] theorem State.setFrame_tx (m : Memory) (n : BitVec 3) (k : BitVec 5) : (s.setFrame m n k).tx = m := rfl
@[simp] theorem State.setFrame_rx (m : Memory) (n : BitVec 3) (k : BitVec 5) : (s.setFrame m n k).rx = s.rx := rfl
@[simp] theorem State.setFrame_program (m : Memory) (n : BitVec 3) (k : BitVec 5) : (s.setFrame m n k).program = s.program := rfl
@[simp] theorem State.setFrame_records (m : Memory) (n : BitVec 3) (k : BitVec 5) : (s.setFrame m n k).records = s.records := rfl

/-! ## setReceived -/

@[simp] theorem State.setReceived_status (m : Memory) (n : BitVec 5) : (s.setReceived m n).status = s.status := rfl
@[simp] theorem State.setReceived_crc (m : Memory) (n : BitVec 5) : (s.setReceived m n).crc = s.crc := rfl
@[simp] theorem State.setReceived_txLen (m : Memory) (n : BitVec 5) : (s.setReceived m n).txLen = s.txLen := rfl
@[simp] theorem State.setReceived_expLen (m : Memory) (n : BitVec 5) : (s.setReceived m n).expLen = s.expLen := rfl
@[simp] theorem State.setReceived_rxLen (m : Memory) (n : BitVec 5) : (s.setReceived m n).rxLen = n := rfl
@[simp] theorem State.setReceived_w (m : Memory) (n : BitVec 5) : (s.setReceived m n).w = s.w := rfl
@[simp] theorem State.setReceived_tx (m : Memory) (n : BitVec 5) : (s.setReceived m n).tx = s.tx := rfl
@[simp] theorem State.setReceived_rx (m : Memory) (n : BitVec 5) : (s.setReceived m n).rx = m := rfl
@[simp] theorem State.setReceived_program (m : Memory) (n : BitVec 5) : (s.setReceived m n).program = s.program := rfl
@[simp] theorem State.setReceived_records (m : Memory) (n : BitVec 5) : (s.setReceived m n).records = s.records := rfl

/-! ## setProgram -/

@[simp] theorem State.setProgram_status (p : List HostAction) : (s.setProgram p).status = s.status := rfl
@[simp] theorem State.setProgram_crc (p : List HostAction) : (s.setProgram p).crc = s.crc := rfl
@[simp] theorem State.setProgram_txLen (p : List HostAction) : (s.setProgram p).txLen = s.txLen := rfl
@[simp] theorem State.setProgram_expLen (p : List HostAction) : (s.setProgram p).expLen = s.expLen := rfl
@[simp] theorem State.setProgram_rxLen (p : List HostAction) : (s.setProgram p).rxLen = s.rxLen := rfl
@[simp] theorem State.setProgram_w (p : List HostAction) : (s.setProgram p).w = s.w := rfl
@[simp] theorem State.setProgram_tx (p : List HostAction) : (s.setProgram p).tx = s.tx := rfl
@[simp] theorem State.setProgram_rx (p : List HostAction) : (s.setProgram p).rx = s.rx := rfl
@[simp] theorem State.setProgram_program (p : List HostAction) : (s.setProgram p).program = p := rfl
@[simp] theorem State.setProgram_records (p : List HostAction) : (s.setProgram p).records = s.records := rfl

/-! ## setRecords -/

@[simp] theorem State.setRecords_status (c : Records) : (s.setRecords c).status = s.status := rfl
@[simp] theorem State.setRecords_crc (c : Records) : (s.setRecords c).crc = s.crc := rfl
@[simp] theorem State.setRecords_txLen (c : Records) : (s.setRecords c).txLen = s.txLen := rfl
@[simp] theorem State.setRecords_expLen (c : Records) : (s.setRecords c).expLen = s.expLen := rfl
@[simp] theorem State.setRecords_rxLen (c : Records) : (s.setRecords c).rxLen = s.rxLen := rfl
@[simp] theorem State.setRecords_w (c : Records) : (s.setRecords c).w = s.w := rfl
@[simp] theorem State.setRecords_tx (c : Records) : (s.setRecords c).tx = s.tx := rfl
@[simp] theorem State.setRecords_rx (c : Records) : (s.setRecords c).rx = s.rx := rfl
@[simp] theorem State.setRecords_program (c : Records) : (s.setRecords c).program = s.program := rfl
@[simp] theorem State.setRecords_records (c : Records) : (s.setRecords c).records = c := rfl

/-! ## setErr -/

@[simp] theorem State.setErr_status (e : ErrorCode) : (s.setErr e).status = statusWithErr s.status e.code := rfl
@[simp] theorem State.setErr_crc (e : ErrorCode) : (s.setErr e).crc = s.crc := rfl
@[simp] theorem State.setErr_txLen (e : ErrorCode) : (s.setErr e).txLen = s.txLen := rfl
@[simp] theorem State.setErr_expLen (e : ErrorCode) : (s.setErr e).expLen = s.expLen := rfl
@[simp] theorem State.setErr_rxLen (e : ErrorCode) : (s.setErr e).rxLen = s.rxLen := rfl
@[simp] theorem State.setErr_w (e : ErrorCode) : (s.setErr e).w = s.w := rfl
@[simp] theorem State.setErr_tx (e : ErrorCode) : (s.setErr e).tx = s.tx := rfl
@[simp] theorem State.setErr_rx (e : ErrorCode) : (s.setErr e).rx = s.rx := rfl
@[simp] theorem State.setErr_program (e : ErrorCode) : (s.setErr e).program = s.program := rfl
@[simp] theorem State.setErr_records (e : ErrorCode) : (s.setErr e).records = s.records := rfl

/-! ## setMatched -/

@[simp] theorem State.setMatched_status (b : Bool) : (s.setMatched b).status = statusWithMatch s.status b := rfl
@[simp] theorem State.setMatched_crc (b : Bool) : (s.setMatched b).crc = s.crc := rfl
@[simp] theorem State.setMatched_txLen (b : Bool) : (s.setMatched b).txLen = s.txLen := rfl
@[simp] theorem State.setMatched_expLen (b : Bool) : (s.setMatched b).expLen = s.expLen := rfl
@[simp] theorem State.setMatched_rxLen (b : Bool) : (s.setMatched b).rxLen = s.rxLen := rfl
@[simp] theorem State.setMatched_w (b : Bool) : (s.setMatched b).w = s.w := rfl
@[simp] theorem State.setMatched_tx (b : Bool) : (s.setMatched b).tx = s.tx := rfl
@[simp] theorem State.setMatched_rx (b : Bool) : (s.setMatched b).rx = s.rx := rfl
@[simp] theorem State.setMatched_program (b : Bool) : (s.setMatched b).program = s.program := rfl
@[simp] theorem State.setMatched_records (b : Bool) : (s.setMatched b).records = s.records := rfl

/-! ## setResult -/

@[simp] theorem State.setResult_status (b : Bool) (n : BitVec 3) : (s.setResult b n).status = statusWithNgrp (statusWithValid s.status b) n := rfl
@[simp] theorem State.setResult_crc (b : Bool) (n : BitVec 3) : (s.setResult b n).crc = s.crc := rfl
@[simp] theorem State.setResult_txLen (b : Bool) (n : BitVec 3) : (s.setResult b n).txLen = s.txLen := rfl
@[simp] theorem State.setResult_expLen (b : Bool) (n : BitVec 3) : (s.setResult b n).expLen = s.expLen := rfl
@[simp] theorem State.setResult_rxLen (b : Bool) (n : BitVec 3) : (s.setResult b n).rxLen = s.rxLen := rfl
@[simp] theorem State.setResult_w (b : Bool) (n : BitVec 3) : (s.setResult b n).w = s.w := rfl
@[simp] theorem State.setResult_tx (b : Bool) (n : BitVec 3) : (s.setResult b n).tx = s.tx := rfl
@[simp] theorem State.setResult_rx (b : Bool) (n : BitVec 3) : (s.setResult b n).rx = s.rx := rfl
@[simp] theorem State.setResult_program (b : Bool) (n : BitVec 3) : (s.setResult b n).program = s.program := rfl
@[simp] theorem State.setResult_records (b : Bool) (n : BitVec 3) : (s.setResult b n).records = s.records := rfl

/-! ## raise, complete, cleared -/

@[simp] theorem raise_eq (e : ErrorCode) : raise e s = s.setErr e := rfl
@[simp] theorem complete_eq : complete s = s.setErr .none := rfl
@[simp] theorem State.cleared_status : s.cleared.status = 0 := rfl
@[simp] theorem State.cleared_crc : s.cleared.crc = 0 := rfl
@[simp] theorem State.cleared_txLen : s.cleared.txLen = 0 := rfl
@[simp] theorem State.cleared_expLen : s.cleared.expLen = 0 := rfl
@[simp] theorem State.cleared_rxLen : s.cleared.rxLen = 0 := rfl
@[simp] theorem State.cleared_w : s.cleared.w = Vector.replicate 6 0 := rfl
@[simp] theorem State.cleared_tx : s.cleared.tx = [] := rfl
@[simp] theorem State.cleared_rx : s.cleared.rx = [] := rfl
@[simp] theorem State.cleared_program : s.cleared.program = s.program := rfl
@[simp] theorem State.cleared_records : s.cleared.records = s.records := rfl

/-! ## The views read `W` only -/

@[simp] theorem State.setCrc_f (c : Byte) (j : Fin 3) : (s.setCrc c).f j = s.f j := rfl
@[simp] theorem State.setCrc_major (c : Byte) : (s.setCrc c).major = s.major := rfl
@[simp] theorem State.setCrc_minor (c : Byte) : (s.setCrc c).minor = s.minor := rfl
@[simp] theorem State.setCrc_ready (c : Byte) : (s.setCrc c).ready = s.ready := rfl
@[simp] theorem State.setFrame_f (m : Memory) (n : BitVec 3) (k : BitVec 5) (j : Fin 3) : (s.setFrame m n k).f j = s.f j := rfl
@[simp] theorem State.setFrame_major (m : Memory) (n : BitVec 3) (k : BitVec 5) : (s.setFrame m n k).major = s.major := rfl
@[simp] theorem State.setFrame_minor (m : Memory) (n : BitVec 3) (k : BitVec 5) : (s.setFrame m n k).minor = s.minor := rfl
@[simp] theorem State.setFrame_ready (m : Memory) (n : BitVec 3) (k : BitVec 5) : (s.setFrame m n k).ready = s.ready := rfl
@[simp] theorem State.setReceived_f (m : Memory) (n : BitVec 5) (j : Fin 3) : (s.setReceived m n).f j = s.f j := rfl
@[simp] theorem State.setReceived_major (m : Memory) (n : BitVec 5) : (s.setReceived m n).major = s.major := rfl
@[simp] theorem State.setReceived_minor (m : Memory) (n : BitVec 5) : (s.setReceived m n).minor = s.minor := rfl
@[simp] theorem State.setReceived_ready (m : Memory) (n : BitVec 5) : (s.setReceived m n).ready = s.ready := rfl
@[simp] theorem State.setProgram_f (p : List HostAction) (j : Fin 3) : (s.setProgram p).f j = s.f j := rfl
@[simp] theorem State.setProgram_major (p : List HostAction) : (s.setProgram p).major = s.major := rfl
@[simp] theorem State.setProgram_minor (p : List HostAction) : (s.setProgram p).minor = s.minor := rfl
@[simp] theorem State.setProgram_ready (p : List HostAction) : (s.setProgram p).ready = s.ready := rfl
@[simp] theorem State.setErr_f (e : ErrorCode) (j : Fin 3) : (s.setErr e).f j = s.f j := rfl
@[simp] theorem State.setErr_major (e : ErrorCode) : (s.setErr e).major = s.major := rfl
@[simp] theorem State.setErr_minor (e : ErrorCode) : (s.setErr e).minor = s.minor := rfl
@[simp] theorem State.setErr_ready (e : ErrorCode) : (s.setErr e).ready = s.ready := rfl
@[simp] theorem State.setMatched_f (b : Bool) (j : Fin 3) : (s.setMatched b).f j = s.f j := rfl
@[simp] theorem State.setMatched_major (b : Bool) : (s.setMatched b).major = s.major := rfl
@[simp] theorem State.setMatched_minor (b : Bool) : (s.setMatched b).minor = s.minor := rfl
@[simp] theorem State.setMatched_ready (b : Bool) : (s.setMatched b).ready = s.ready := rfl
@[simp] theorem State.setResult_f (b : Bool) (n : BitVec 3) (j : Fin 3) : (s.setResult b n).f j = s.f j := rfl
@[simp] theorem State.setResult_major (b : Bool) (n : BitVec 3) : (s.setResult b n).major = s.major := rfl
@[simp] theorem State.setResult_minor (b : Bool) (n : BitVec 3) : (s.setResult b n).minor = s.minor := rfl
@[simp] theorem State.setResult_ready (b : Bool) (n : BitVec 3) : (s.setResult b n).ready = s.ready := rfl

@[simp] theorem State.setRecords_major (c : Records) : (s.setRecords c).major = s.major := rfl
@[simp] theorem State.setRecords_minor (c : Records) : (s.setRecords c).minor = s.minor := rfl
@[simp] theorem State.setRecords_ready (c : Records) : (s.setRecords c).ready = s.ready := rfl
@[simp] theorem State.setRecords_f (c : Records) (j : Fin 3) : (s.setRecords c).f j = s.f j := rfl

/-! ## The flags read `STATUS` only -/

@[simp] theorem State.setCrc_valid (c : Byte) : (s.setCrc c).valid = s.valid := rfl
@[simp] theorem State.setCrc_matched (c : Byte) : (s.setCrc c).matched = s.matched := rfl
@[simp] theorem State.setCrc_err (c : Byte) : (s.setCrc c).err = s.err := rfl
@[simp] theorem State.setCrc_ngrp (c : Byte) : (s.setCrc c).ngrp = s.ngrp := rfl
@[simp] theorem State.setCrc_reservedBit (c : Byte) : (s.setCrc c).reservedBit = s.reservedBit := rfl
@[simp] theorem State.setWords_valid (v : Vector Word 6) : (s.setWords v).valid = s.valid := rfl
@[simp] theorem State.setWords_matched (v : Vector Word 6) : (s.setWords v).matched = s.matched := rfl
@[simp] theorem State.setWords_err (v : Vector Word 6) : (s.setWords v).err = s.err := rfl
@[simp] theorem State.setWords_ngrp (v : Vector Word 6) : (s.setWords v).ngrp = s.ngrp := rfl
@[simp] theorem State.setWords_reservedBit (v : Vector Word 6) : (s.setWords v).reservedBit = s.reservedBit := rfl
@[simp] theorem State.setFrame_valid (m : Memory) (n : BitVec 3) (k : BitVec 5) : (s.setFrame m n k).valid = s.valid := rfl
@[simp] theorem State.setFrame_matched (m : Memory) (n : BitVec 3) (k : BitVec 5) : (s.setFrame m n k).matched = s.matched := rfl
@[simp] theorem State.setFrame_err (m : Memory) (n : BitVec 3) (k : BitVec 5) : (s.setFrame m n k).err = s.err := rfl
@[simp] theorem State.setFrame_ngrp (m : Memory) (n : BitVec 3) (k : BitVec 5) : (s.setFrame m n k).ngrp = s.ngrp := rfl
@[simp] theorem State.setFrame_reservedBit (m : Memory) (n : BitVec 3) (k : BitVec 5) : (s.setFrame m n k).reservedBit = s.reservedBit := rfl
@[simp] theorem State.setReceived_valid (m : Memory) (n : BitVec 5) : (s.setReceived m n).valid = s.valid := rfl
@[simp] theorem State.setReceived_matched (m : Memory) (n : BitVec 5) : (s.setReceived m n).matched = s.matched := rfl
@[simp] theorem State.setReceived_err (m : Memory) (n : BitVec 5) : (s.setReceived m n).err = s.err := rfl
@[simp] theorem State.setReceived_ngrp (m : Memory) (n : BitVec 5) : (s.setReceived m n).ngrp = s.ngrp := rfl
@[simp] theorem State.setReceived_reservedBit (m : Memory) (n : BitVec 5) : (s.setReceived m n).reservedBit = s.reservedBit := rfl
@[simp] theorem State.setProgram_valid (p : List HostAction) : (s.setProgram p).valid = s.valid := rfl
@[simp] theorem State.setProgram_matched (p : List HostAction) : (s.setProgram p).matched = s.matched := rfl
@[simp] theorem State.setProgram_err (p : List HostAction) : (s.setProgram p).err = s.err := rfl
@[simp] theorem State.setProgram_ngrp (p : List HostAction) : (s.setProgram p).ngrp = s.ngrp := rfl
@[simp] theorem State.setProgram_reservedBit (p : List HostAction) : (s.setProgram p).reservedBit = s.reservedBit := rfl

@[simp] theorem State.setRecords_valid (c : Records) : (s.setRecords c).valid = s.valid := rfl
@[simp] theorem State.setRecords_matched (c : Records) : (s.setRecords c).matched = s.matched := rfl
@[simp] theorem State.setRecords_err (c : Records) : (s.setRecords c).err = s.err := rfl
@[simp] theorem State.setRecords_ngrp (c : Records) : (s.setRecords c).ngrp = s.ngrp := rfl
@[simp] theorem State.setRecords_reservedBit (c : Records) : (s.setRecords c).reservedBit = s.reservedBit := rfl

end Sys2Proof.Machine
end

