-- ==== Sys2Proof/Laws/Flags.lean ====
section
/-! SUPPORT. The fields of `STATUS` after a write of one of them (Table ST-2 of rule R15): the field written reads as
written, every other field and the reserved bit as before. -/

namespace Sys2Proof.Machine

/-! ## Bit by bit -/

theorem statusWithErr_fields (st : BitVec 8) (e : BitVec 2) :
    (statusWithErr st e).getLsbD 0 = st.getLsbD 0 ∧ (statusWithErr st e).getLsbD 1 = st.getLsbD 1 ∧
    (statusWithErr st e).extractLsb' 2 2 = e ∧
    (statusWithErr st e).extractLsb' 4 3 = st.extractLsb' 4 3 ∧
    (statusWithErr st e).getLsbD 7 = st.getLsbD 7 := by
  revert st e; decide

theorem statusWithMatch_fields (st : BitVec 8) (m : Bool) :
    (statusWithMatch st m).getLsbD 0 = st.getLsbD 0 ∧ (statusWithMatch st m).getLsbD 1 = m ∧
    (statusWithMatch st m).extractLsb' 2 2 = st.extractLsb' 2 2 ∧
    (statusWithMatch st m).extractLsb' 4 3 = st.extractLsb' 4 3 ∧
    (statusWithMatch st m).getLsbD 7 = st.getLsbD 7 := by
  revert st m; decide

theorem statusWithValid_fields (st : BitVec 8) (v : Bool) :
    (statusWithValid st v).getLsbD 0 = v ∧ (statusWithValid st v).getLsbD 1 = st.getLsbD 1 ∧
    (statusWithValid st v).extractLsb' 2 2 = st.extractLsb' 2 2 ∧
    (statusWithValid st v).extractLsb' 4 3 = st.extractLsb' 4 3 ∧
    (statusWithValid st v).getLsbD 7 = st.getLsbD 7 := by
  revert st v; decide

theorem statusWithNgrp_fields (st : BitVec 8) (n : BitVec 3) :
    (statusWithNgrp st n).getLsbD 0 = st.getLsbD 0 ∧ (statusWithNgrp st n).getLsbD 1 = st.getLsbD 1 ∧
    (statusWithNgrp st n).extractLsb' 2 2 = st.extractLsb' 2 2 ∧
    (statusWithNgrp st n).extractLsb' 4 3 = n ∧
    (statusWithNgrp st n).getLsbD 7 = st.getLsbD 7 := by
  revert st n; decide

/-- A `STATUS` is its five fields (Table ST-2 of rule R15). -/
theorem status_ext {a b : BitVec 8} (h0 : a.getLsbD 0 = b.getLsbD 0) (h1 : a.getLsbD 1 = b.getLsbD 1)
    (h2 : a.extractLsb' 2 2 = b.extractLsb' 2 2) (h4 : a.extractLsb' 4 3 = b.extractLsb' 4 3)
    (h7 : a.getLsbD 7 = b.getLsbD 7) : a = b := by
  have bit : ∀ (lo n i : Nat), i < n → a.extractLsb' lo n = b.extractLsb' lo n →
      a.getLsbD (lo + i) = b.getLsbD (lo + i) := by
    intro lo n i hi h
    have := congrArg (fun v => v.getLsbD i) h
    simpa [BitVec.getLsbD_extractLsb', hi] using this
  refine BitVec.eq_of_getLsbD_eq fun i hi => ?_
  have : i = 0 ∨ i = 1 ∨ i = 2 ∨ i = 3 ∨ i = 4 ∨ i = 5 ∨ i = 6 ∨ i = 7 := by omega
  rcases this with rfl | rfl | rfl | rfl | rfl | rfl | rfl | rfl
  · exact h0
  · exact h1
  · exact bit 2 2 0 (by omega) h2
  · exact bit 2 2 1 (by omega) h2
  · exact bit 4 3 0 (by omega) h4
  · exact bit 4 3 1 (by omega) h4
  · exact bit 4 3 2 (by omega) h4
  · exact h7

/-- Writing `ERR` twice is writing it once. -/
theorem statusWithErr_again (st : BitVec 8) (e e' : BitVec 2) :
    statusWithErr (statusWithErr st e) e' = statusWithErr st e' := by
  have h := statusWithErr_fields st e
  have h1 := statusWithErr_fields (statusWithErr st e) e'
  have h2 := statusWithErr_fields st e'
  exact status_ext (by rw [h1.1, h2.1, h.1]) (by rw [h1.2.1, h2.2.1, h.2.1]) (by rw [h1.2.2.1, h2.2.2.1])
    (by rw [h1.2.2.2.1, h2.2.2.2.1, h.2.2.2.1]) (by rw [h1.2.2.2.2, h2.2.2.2.2, h.2.2.2.2])

/-! ## State by state -/

variable (s : State)

@[simp] theorem State.setErr_valid (e : ErrorCode) : (s.setErr e).valid = s.valid :=
  (statusWithErr_fields s.status e.code).1

@[simp] theorem State.setErr_matched (e : ErrorCode) : (s.setErr e).matched = s.matched :=
  (statusWithErr_fields s.status e.code).2.1

@[simp] theorem State.setErr_err (e : ErrorCode) : (s.setErr e).err = e.code :=
  (statusWithErr_fields s.status e.code).2.2.1

@[simp] theorem State.setErr_ngrp (e : ErrorCode) : (s.setErr e).ngrp = s.ngrp :=
  (statusWithErr_fields s.status e.code).2.2.2.1

@[simp] theorem State.setErr_reservedBit (e : ErrorCode) : (s.setErr e).reservedBit = s.reservedBit :=
  (statusWithErr_fields s.status e.code).2.2.2.2

@[simp] theorem State.setMatched_valid (b : Bool) : (s.setMatched b).valid = s.valid :=
  (statusWithMatch_fields s.status b).1

@[simp] theorem State.setMatched_matched (b : Bool) : (s.setMatched b).matched = b :=
  (statusWithMatch_fields s.status b).2.1

@[simp] theorem State.setMatched_err (b : Bool) : (s.setMatched b).err = s.err :=
  (statusWithMatch_fields s.status b).2.2.1

@[simp] theorem State.setMatched_ngrp (b : Bool) : (s.setMatched b).ngrp = s.ngrp :=
  (statusWithMatch_fields s.status b).2.2.2.1

@[simp] theorem State.setMatched_reservedBit (b : Bool) : (s.setMatched b).reservedBit = s.reservedBit :=
  (statusWithMatch_fields s.status b).2.2.2.2

@[simp] theorem State.setResult_valid (b : Bool) (n : BitVec 3) : (s.setResult b n).valid = b :=
  ((statusWithNgrp_fields _ n).1).trans (statusWithValid_fields s.status b).1

@[simp] theorem State.setResult_matched (b : Bool) (n : BitVec 3) : (s.setResult b n).matched = s.matched :=
  ((statusWithNgrp_fields _ n).2.1).trans (statusWithValid_fields s.status b).2.1

@[simp] theorem State.setResult_err (b : Bool) (n : BitVec 3) : (s.setResult b n).err = s.err :=
  ((statusWithNgrp_fields _ n).2.2.1).trans (statusWithValid_fields s.status b).2.2.1

@[simp] theorem State.setResult_ngrp (b : Bool) (n : BitVec 3) : (s.setResult b n).ngrp = n :=
  (statusWithNgrp_fields _ n).2.2.2.1

@[simp] theorem State.setResult_reservedBit (b : Bool) (n : BitVec 3) : (s.setResult b n).reservedBit = s.reservedBit :=
  ((statusWithNgrp_fields _ n).2.2.2.2).trans (statusWithValid_fields s.status b).2.2.2.2

@[simp] theorem State.cleared_valid : s.cleared.valid = false := by
  change (0 : BitVec 8).getLsbD 0 = false; decide

@[simp] theorem State.cleared_matched : s.cleared.matched = false := by
  change (0 : BitVec 8).getLsbD 1 = false; decide

@[simp] theorem State.cleared_err : s.cleared.err = 0 := by
  change (0 : BitVec 8).extractLsb' 2 2 = 0; decide

@[simp] theorem State.cleared_ngrp : s.cleared.ngrp = 0 := by
  change (0 : BitVec 8).extractLsb' 4 3 = 0; decide

@[simp] theorem State.cleared_reservedBit : s.cleared.reservedBit = false := by
  change (0 : BitVec 8).getLsbD 7 = false; decide

/-- The four error codes are four numbers (Table X-1 of rule R131). -/
theorem ErrorCode.code_injective {e e' : ErrorCode} (h : e.code = e'.code) : e = e' := by
  cases e <;> cases e' <;> first | rfl | exact absurd h (by decide)

end Sys2Proof.Machine
end

