-- ==== Sys2Proof/Laws/Memory.lean ====
section
/-! SUPPORT. The basic laws of a byte buffer: a read after a write, the canonical form is kept by every operation, two
canonical buffers that read the same are the same; and one lemma for each primitive of rule R40. -/

namespace Sys2Proof.Machine

/-! ## Reading after writing -/

/-- Below the first listed offset nothing is listed. -/
theorem Memory.read_of_above (m : Memory) (k a : Nat) (h : ∀ c ∈ m, k < c.1) (ha : a ≤ k) :
    m.read a = Memory.unlisted := by
  induction m with
  | nil => rfl
  | cons c m ih =>
    have := h c (by simp)
    rw [Memory.read, if_neg (by omega)]
    exact ih fun d hd => h d (by simp [hd])

/-- A read gives the byte just written, and every other offset reads as before. -/
theorem Memory.read_write (m : Memory) (a : Nat) (v : Byte) (b : Nat) (h : m.wf = true) :
    (m.write a v).read b = if b = a then v else m.read b := by
  induction m with
  | nil => by_cases hv : v = Memory.unlisted <;> simp [Memory.write, Memory.read, hv]
  | cons c m ih =>
    obtain ⟨k, x⟩ := c
    simp only [Memory.wf, Bool.and_eq_true, List.all_eq_true, decide_eq_true_eq] at h
    obtain ⟨⟨hx, hk⟩, hm⟩ := h
    have absent : ∀ j ≤ k, Memory.read m j = Memory.unlisted := fun j hj => Memory.read_of_above m k j hk hj
    unfold Memory.write
    split
    · next hlt =>
      split
      · next hv =>
        subst hv
        split
        · next hb => subst hb; rw [Memory.read, if_neg (by omega), absent _ (by omega)]
        · rfl
      · rw [Memory.read]
    · split
      · next hge heq =>
        subst heq
        split
        · next hv =>
          subst hv
          by_cases hb : b = a
          · subst hb; rw [if_pos rfl]; exact absent b (Nat.le_refl _)
          · simp [Memory.read, hb]
        · by_cases hb : b = a <;> simp [Memory.read, hb]
      · next hge hne =>
        rw [Memory.read, Memory.read, ih hm]
        by_cases hb : b = k
        · simp [hb, show k ≠ a by omega]
        · simp [hb]

/-- A write leaves every other offset alone, in canonical form or not. -/
theorem Memory.read_write_of_ne (m : Memory) (a : Nat) (v : Byte) (b : Nat) (h : b ≠ a) :
    (m.write a v).read b = m.read b := by
  induction m with
  | nil => by_cases hv : v = Memory.unlisted <;> simp [Memory.write, Memory.read, hv, h]
  | cons c m ih =>
    obtain ⟨k, x⟩ := c
    unfold Memory.write
    split
    · split
      · rfl
      · rw [Memory.read, if_neg h]
    · split
      · next heq =>
        subst heq
        split <;> simp [Memory.read, h]
      · rw [Memory.read, Memory.read, ih]

/-- A sequence of writes leaves every offset it does not cover alone. -/
theorem Memory.read_writeBytes_outside (bs : List Byte) : ∀ (m : Memory) (off a : Nat),
    ¬ (off ≤ a ∧ a < off + bs.length) → (m.writeBytes off bs).read a = m.read a := by
  induction bs with
  | nil => intro m off a _; rfl
  | cons b bs ih =>
    intro m off a h
    rw [List.length_cons] at h
    rw [Memory.writeBytes, ih _ _ _ (by omega), Memory.read_write_of_ne m off b a (by omega)]

/-! ## The canonical form -/

/-- An offset bound from below survives a write at or above it. -/
theorem Memory.write_above (m : Memory) (a : Nat) (v : Byte) (k : Nat) (ha : k < a) (h : ∀ c ∈ m, k < c.1) :
    ∀ c ∈ m.write a v, k < c.1 := by
  induction m with
  | nil => unfold Memory.write; split <;> simp_all
  | cons c m ih =>
    obtain ⟨j, x⟩ := c
    have hj : k < j := h (j, x) (by simp)
    have hm : ∀ d ∈ m, k < d.1 := fun d hd => h d (by simp [hd])
    unfold Memory.write
    split
    · split
      · exact h
      · exact List.forall_mem_cons.mpr ⟨ha, h⟩
    · split
      · split
        · exact hm
        · exact List.forall_mem_cons.mpr ⟨ha, hm⟩
      · exact List.forall_mem_cons.mpr ⟨hj, ih hm⟩

/-- A write keeps the canonical form. -/
theorem Memory.wf_write (m : Memory) (a : Nat) (v : Byte) (h : m.wf = true) : (m.write a v).wf = true := by
  induction m with
  | nil => by_cases hv : v = Memory.unlisted <;> simp [Memory.write, Memory.wf, hv]
  | cons c m ih =>
    obtain ⟨k, x⟩ := c
    have whole := h
    simp only [Memory.wf, Bool.and_eq_true, List.all_eq_true, decide_eq_true_eq] at h
    obtain ⟨⟨hx, hk⟩, hm⟩ := h
    unfold Memory.write
    split
    · next hlt =>
      split
      · exact whole
      · next hv =>
        have above : ∀ d ∈ m, a < d.1 := fun d hd => Nat.lt_trans hlt (hk d hd)
        simp only [Memory.wf, Bool.and_eq_true, List.all_eq_true, decide_eq_true_eq, List.mem_cons]
        exact ⟨⟨hv, by rintro d (rfl | hd); exacts [hlt, above d hd]⟩, ⟨hx, hk⟩, hm⟩
    · split
      · next hge heq =>
        split
        · exact hm
        · next hv =>
          simp only [Memory.wf, Bool.and_eq_true, List.all_eq_true, decide_eq_true_eq]
          exact ⟨⟨hv, heq ▸ hk⟩, hm⟩
      · next hge hne =>
        simp only [Memory.wf, Bool.and_eq_true, List.all_eq_true, decide_eq_true_eq]
        exact ⟨⟨hx, Memory.write_above m a v k (by omega) hk⟩, ih hm⟩

/-- A sequence of writes keeps the canonical form. -/
theorem Memory.wf_writeBytes (bs : List Byte) : ∀ (m : Memory) (off : Nat), m.wf = true →
    (m.writeBytes off bs).wf = true := by
  induction bs with
  | nil => intro m _ h; exact h
  | cons b bs ih => intro m off h; exact ih _ _ (Memory.wf_write m off b h)

/-- After a sequence is stored, the offsets it covers read as its bytes and every other offset as before. -/
theorem Memory.read_writeBytes (bs : List Byte) : ∀ (m : Memory) (off a : Nat), m.wf = true →
    (m.writeBytes off bs).read a =
      if off ≤ a ∧ a < off + bs.length then bs.getD (a - off) 0 else m.read a := by
  induction bs with
  | nil => intro m off a _; rw [if_neg (by rw [List.length_nil]; omega)]; rfl
  | cons b bs ih =>
    intro m off a h
    rw [Memory.writeBytes, ih _ _ _ (Memory.wf_write m off b h), Memory.read_write m off b a h]
    simp only [List.length_cons]
    by_cases h0 : a = off
    · subst h0; simp
    · by_cases h1 : off + 1 ≤ a ∧ a < off + 1 + bs.length
      · rw [if_pos h1, if_pos (by omega), show a - off = (a - (off + 1)) + 1 by omega, List.getD_cons_succ]
      · rw [if_neg h1, if_neg h0, if_neg (by omega)]

/-- A canonical buffer is determined by what it reads: equal contents are equal data. -/
theorem Memory.eq_of_read : ∀ (m n : Memory), m.wf = true → n.wf = true → (∀ a, m.read a = n.read a) → m = n := by
  intro m
  induction m with
  | nil =>
    intro n _ hn h
    cases n with
    | nil => rfl
    | cons c n =>
      simp only [Memory.wf, Bool.and_eq_true, decide_eq_true_eq] at hn
      have := h c.1
      simp [Memory.read] at this
      exact absurd this.symm hn.1.1
  | cons c m ih =>
    intro n hm hn h
    obtain ⟨k, x⟩ := c
    simp only [Memory.wf, Bool.and_eq_true, List.all_eq_true, decide_eq_true_eq] at hm
    cases n with
    | nil =>
      have := h k
      simp [Memory.read] at this
      exact absurd this hm.1.1
    | cons d n =>
      obtain ⟨j, y⟩ := d
      simp only [Memory.wf, Bool.and_eq_true, List.all_eq_true, decide_eq_true_eq] at hn
      have hkj : k = j := by
        rcases Nat.lt_trichotomy k j with hlt | heq | hgt
        · have := h k
          rw [Memory.read, if_pos rfl, Memory.read, if_neg (by omega),
            Memory.read_of_above n j k hn.1.2 (by omega)] at this
          exact absurd this hm.1.1
        · exact heq
        · have := h j
          rw [Memory.read, if_neg (by omega), Memory.read_of_above m k j hm.1.2 (by omega), Memory.read,
            if_pos rfl] at this
          exact absurd this.symm hn.1.1
      subst hkj
      have hxy : x = y := by have := h k; simpa [Memory.read] using this
      subst hxy
      rw [ih n hm.2 hn.2 fun a => ?_]
      by_cases ha : a = k
      · rw [ha, Memory.read_of_above m k k hm.1.2 (Nat.le_refl _), Memory.read_of_above n k k hn.1.2 (Nat.le_refl _)]
      · have := h a
        simpa [Memory.read, ha] using this

/-- The reads of a canonical buffer bound by `n` are zero from `n` on, and conversely. -/
theorem Memory.below_iff (m : Memory) (n : Nat) (h : m.wf = true) :
    m.below n = true ↔ ∀ a, n ≤ a → m.read a = Memory.unlisted := by
  induction m with
  | nil => simp [Memory.below, Memory.read]
  | cons c m ih =>
    obtain ⟨k, x⟩ := c
    simp only [Memory.wf, Bool.and_eq_true, List.all_eq_true, decide_eq_true_eq] at h
    obtain ⟨⟨hx, hk⟩, hm⟩ := h
    have step := ih hm
    simp only [Memory.below, List.all_cons, Bool.and_eq_true, decide_eq_true_eq] at step ⊢
    constructor
    · rintro ⟨hkn, hrest⟩ a ha
      rw [Memory.read, if_neg (by omega)]
      exact step.mp hrest a ha
    · intro hz
      have hkn : k < n := by
        by_contra hge
        have := hz k (by omega)
        simp [Memory.read] at this
        exact hx this
      refine ⟨hkn, step.mpr fun a ha => ?_⟩
      have := hz a ha
      rwa [Memory.read, if_neg (by omega)] at this

/-! ## The bytes read in a row -/

theorem Memory.length_readBytes (m : Memory) (n : Nat) : ∀ off, (m.readBytes off n).length = n := by
  induction n with
  | zero => intro _; rfl
  | succ n ih => intro off; simp [Memory.readBytes, ih]

/-- Byte `i` of the bytes read from `off` on is the byte at `off + i`. -/
theorem Memory.getD_readBytes (m : Memory) (n : Nat) : ∀ off i, i < n →
    (m.readBytes off n).getD i 0 = m.read (off + i) := by
  induction n with
  | zero => intro _ i h; omega
  | succ n ih =>
    intro off i h
    cases i with
    | zero => rfl
    | succ i =>
      rw [Memory.readBytes, List.getD_cons_succ, ih (off + 1) i (by omega)]
      congr 1
      omega

/-- Bytes stored one after another are read back one after another. -/
theorem Memory.readBytes_writeBytes (m : Memory) (off n : Nat) (bs : List Byte) (h : m.wf = true)
    (hn : n ≤ bs.length) : (m.writeBytes off bs).readBytes off n = bs.take n := by
  refine List.ext_getElem (by rw [Memory.length_readBytes, List.length_take]; omega) fun i h1 h2 => ?_
  rw [Memory.length_readBytes] at h1
  have key := Memory.getD_readBytes (m.writeBytes off bs) n off i h1
  rw [Memory.read_writeBytes bs m off _ h, if_pos (by omega), Nat.add_sub_cancel_left] at key
  rw [List.getD_eq_getElem _ _ (by rw [Memory.length_readBytes]; exact h1),
    List.getD_eq_getElem _ _ (by omega)] at key
  rw [key, List.getElem_take]

/-- Storing a sequence twice is storing it once. -/
theorem Memory.writeBytes_again (m : Memory) (off : Nat) (bs : List Byte) (h : m.wf = true) :
    (m.writeBytes off bs).writeBytes off bs = m.writeBytes off bs := by
  have hw := Memory.wf_writeBytes bs m off h
  refine Memory.eq_of_read _ _ (Memory.wf_writeBytes bs _ off hw) hw fun a => ?_
  rw [Memory.read_writeBytes bs _ off a hw]
  split
  · next hin => rw [Memory.read_writeBytes bs m off a h, if_pos hin]
  · rfl

/-! ## The primitives of rule R40 -/

/-- Everything `MemRead` can do: it is defined exactly inside the loaded bytes, and then gives them. -/
theorem memReadRx_eq_some {off n : Nat} {s : State} {bs : List Byte} :
    memReadRx off n s = some bs ↔
      off + n ≤ s.rxLen.toNat ∧ off + n ≤ 18 ∧ bs = s.rx.readBytes off n := by
  by_cases h : off + n ≤ s.rxLen.toNat ∧ off + n ≤ 18
  · rw [memReadRx, Config.rxSize, if_pos h]
    simp [h, eq_comm]
  · rw [memReadRx, Config.rxSize, if_neg h]
    exact ⟨fun h' => absurd h' (by simp), fun h' => absurd ⟨h'.1, h'.2.1⟩ h⟩

/-- Everything `MemWrite` can do: it is defined exactly inside `TX`, and then stores the bytes. -/
theorem memWriteTx_eq_some {off n : Nat} {bs : List Byte} {m m' : Memory} :
    memWriteTx off n bs m = some m' ↔ off + n ≤ 5 ∧ bs.length = n ∧ m' = m.writeBytes off bs := by
  by_cases h : off + n ≤ 5 ∧ bs.length = n
  · rw [memWriteTx, Config.txSize, if_pos h]
    simp [h, eq_comm]
  · rw [memWriteTx, Config.txSize, if_neg h]
    exact ⟨fun h' => absurd h' (by simp), fun h' => absurd ⟨h'.1, h'.2.1⟩ h⟩

end Sys2Proof.Machine
end

