-- ==== Sys2Proof/Laws/Decoder.lean ====
section
/-! SUPPORT. What reading a group, the scan and `decode(n)` of rule R100 do, each said once. -/

namespace Sys2Proof.Machine

/-- The three bytes of group `g` of `RX`, read one by one (Table E-2 of rule R46). -/
def rxGroup (s : State) (g : Nat) : Group :=
  ⟨s.rx.read (3 * g), s.rx.read (3 * g + 1), s.rx.read (3 * g + 2)⟩

/-- A group inside the loaded bytes is read. -/
theorem readGroup_eq_some {g : Nat} {s : State} (h : 3 * g + 3 ≤ s.rxLen.toNat) (h18 : 3 * g + 3 ≤ 18) :
    readGroup g s = some (rxGroup s g) := by
  rw [readGroup, show Config.groupSize = 3 from rfl, memReadRx_eq_some.mpr ⟨h, h18, rfl⟩]
  rfl

/-- The scan over groups that all lie inside the loaded bytes says whether all are intact; the order of the groups
shows in nothing (rule R100). -/
theorem scanGroups_eq_all (s : State) (gs : List Nat)
    (h : ∀ g ∈ gs, 3 * g + 3 ≤ s.rxLen.toNat ∧ 3 * g + 3 ≤ 18) :
    scanGroups s gs = some (gs.all fun g => (rxGroup s g).intact) := by
  induction gs with
  | nil => rfl
  | cons g gs ih =>
    have hg := h g (by simp)
    rw [scanGroups, readGroup_eq_some hg.1 hg.2]
    simp only [List.all_cons]
    cases (rxGroup s g).intact with
    | true => simpa using ih fun k hk => h k (by simp [hk])
    | false => rfl

/-- Whether the first `k` groups of `RX` are intact. -/
def groupsIntact (s : State) (k : Nat) : Bool := (List.range k).all fun g => (rxGroup s g).intact

theorem groupsIntact_iff (s : State) (k : Nat) :
    groupsIntact s k = true ↔ ∀ g < k, (rxGroup s g).ck = crc8 (rxGroup s g).dh (rxGroup s g).dl := by
  simp [groupsIntact, Group.intact]

/-- Everything `decode(n)` can do for the three lengths: it always answers a next state, and which one the length test
and the checksums decide (rule R100, rule R135). -/
theorem decodeResponse_eq_next (k : Nat) (s : State) (hk : k ≤ 6) :
    decodeResponse (3 * k) s = .next
      (if s.rxLen.toNat ≠ 3 * k then decodeFail .lengthError s
       else if groupsIntact s k = true then decodeCommit k s else decodeFail .checksumError s) := by
  unfold decodeResponse
  by_cases hlen : s.rxLen.toNat = 3 * k
  · have hdiv : 3 * k / Config.groupSize = k := by unfold Config.groupSize; omega
    rw [if_neg (by simpa using hlen), if_neg (by simpa using hlen), hdiv, scanGroups_eq_all]
    · rw [groupsIntact]
      cases (List.range k).all fun g => (rxGroup s g).intact <;> rfl
    · intro g hg
      have := List.mem_range.mp hg
      omega
  · rw [if_pos hlen, if_pos hlen]

/-- The three decode operations, whole (rules R101 to R103). -/
theorem execDec3_eq_next (s : State) : execDec3 s = .next
    (if s.rxLen.toNat ≠ 3 then decodeFail .lengthError s
     else if groupsIntact s 1 = true then decodeCommit 1 s else decodeFail .checksumError s) :=
  decodeResponse_eq_next 1 s (by omega)

theorem execDec6_eq_next (s : State) : execDec6 s = .next
    (if s.rxLen.toNat ≠ 6 then decodeFail .lengthError s
     else if groupsIntact s 2 = true then decodeCommit 2 s else decodeFail .checksumError s) :=
  decodeResponse_eq_next 2 s (by omega)

theorem execDec18_eq_next (s : State) : execDec18 s = .next
    (if s.rxLen.toNat ≠ 18 then decodeFail .lengthError s
     else if groupsIntact s 6 = true then decodeCommit 6 s else decodeFail .checksumError s) :=
  decodeResponse_eq_next 6 s (by omega)

/-- A committed word (rule R11). -/
theorem decodedWords_getElem (k : Nat) (s : State) (g : Nat) (h : g < 6) :
    (decodedWords k s)[g] = if g < k then rxWord s g else 0 := by
  simp [decodedWords]

/-- `CHK` in a state with a legal `RXLEN`, whole (rule R68). -/
theorem execChk_eq_next (arg : Word) (s : State) (h : s.rxLen.toNat ≤ 18) : execChk arg s = .next
    (if 3 * arg.toNat + 3 > s.rxLen.toNat then (s.setMatched false).setErr .lengthError
     else (s.setMatched (rxGroup s arg.toNat).intact).setErr .none) := by
  unfold execChk groupIndex
  split
  · rfl
  · next hin => rw [readGroup_eq_some (by omega) (by omega)]; rfl

end Sys2Proof.Machine
end

