-- ==== Sys2Proof/Laws/Encoder.lean ====
section
/-! SUPPORT. What the helpers of rule R75 do, each said once: they always answer a next state, with `TX` written whole,
`TXLEN`, `EXPLEN` and `STATUS.ERR`. -/

namespace Sys2Proof.Machine

/-- The part that the three helpers share: five bytes always fit. -/
theorem storeFrame_eq_next (bs : List Byte) (n : BitVec 3) (k : BitVec 5) (e : ErrorCode) (s : State)
    (h : bs.length = 5) :
    storeFrame bs n k e s = .next ((s.setFrame (s.tx.writeBytes 0 bs) n k).setErr e) := by
  rw [storeFrame, memWriteTx_eq_some.mpr ⟨by omega, h, rfl⟩]
  rfl

/-- `emit2(reg, n)` (rule R75). -/
theorem emit2_eq_next (reg : Word) (n : BitVec 5) (s : State) :
    emit2 reg n s =
      .next ((s.setFrame (s.tx.writeBytes 0 [hiByte reg, loByte reg, 0, 0, 0]) 2 n).setErr .none) :=
  storeFrame_eq_next _ _ _ _ _ rfl

/-- `emit5(reg, p)` (rule R75). -/
theorem emit5_eq_next (reg p : Word) (s : State) :
    emit5 reg p s =
      .next ((s.setFrame (s.tx.writeBytes 0
        [hiByte reg, loByte reg, hiByte p, loByte p, crc8 (hiByte p) (loByte p)]) 5 0).setErr .none) :=
  storeFrame_eq_next _ _ _ _ _ rfl

/-- `refuse()` (rule R75). -/
theorem refuse_eq_next (s : State) :
    refuse s = .next ((s.setFrame (s.tx.writeBytes 0 [0, 0, 0, 0, 0]) 0 0).setErr .illegalOperation) :=
  storeFrame_eq_next _ _ _ _ _ rfl

/-- The five bytes of `TX` after all five are stored over a canonical buffer. -/
theorem tx_bytes_after_store (m : Memory) (a b c d e : Byte) (h : m.wf = true) :
    (m.writeBytes 0 [a, b, c, d, e]).readBytes 0 5 = [a, b, c, d, e] :=
  Memory.readBytes_writeBytes m 0 5 _ h (Nat.le_refl 5)

/-- A bit of two bytes side by side: the low eight come from the second (rule R6, rule R31). -/
theorem getLsbD_two_bytes (a b : Byte) (i : Nat) :
    BitVec.getLsbD (w := 16) (a ++ b) i = if i < 8 then b.getLsbD i else a.getLsbD (i - 8) :=
  (BitVec.getLsbD_append (x := a) (y := b)).trans (by cases decide (i < 8) <;> rfl)

/-- Concatenating the two bytes of a word gives the word back (rule R48). -/
theorem hiByte_append_loByte (v : Word) : hiByte v ++ loByte v = v := by
  refine BitVec.eq_of_getLsbD_eq fun i hi => ?_
  rw [getLsbD_two_bytes]
  split
  · next h => simp [loByte, h]
  · next h =>
    have h8 : i - 8 < 8 := by omega
    simp [hiByte, h8, show 8 + (i - 8) = i by omega]

/-- The two bytes of a concatenation are its parts (rule R31). -/
theorem hiByte_append (a b : Byte) : hiByte (a ++ b) = a := by
  refine BitVec.eq_of_getLsbD_eq fun i hi => ?_
  rw [hiByte, BitVec.getLsbD_extractLsb', getLsbD_two_bytes]
  simp [hi]

theorem loByte_append (a b : Byte) : loByte (a ++ b) = b := by
  refine BitVec.eq_of_getLsbD_eq fun i hi => ?_
  rw [loByte, BitVec.getLsbD_extractLsb', getLsbD_two_bytes]
  simp [hi]

end Sys2Proof.Machine
end

