-- ==== Sys2Proof/Laws/Float32.lean ====
section
/-! SUPPORT. The reading of a float pattern, class by class (rule R116). -/

namespace Sys2Proof.Machine

variable (v : Float32Bits)

theorem readFloat_normal (h0 : (floatExponent v).toNat ≠ 0) (h255 : (floatExponent v).toNat ≠ 255) :
    readFloat v = .finite (floatSign v) (2 ^ 23 + (floatFraction v).toNat) ((floatExponent v).toNat - 150) := by
  rw [readFloat, if_neg h255, if_neg h0]

theorem readFloat_subnormal (h0 : (floatExponent v).toNat = 0) :
    readFloat v = .finite (floatSign v) (floatFraction v).toNat (-149) := by
  rw [readFloat, if_neg (by rw [h0]; decide), if_pos h0]

theorem readFloat_infinity (h255 : (floatExponent v).toNat = 255) (hf : (floatFraction v).toNat = 0) :
    readFloat v = .infinity (floatSign v) := by
  rw [readFloat, if_pos h255, if_pos hf]

theorem readFloat_nan (h255 : (floatExponent v).toNat = 255) (hf : (floatFraction v).toNat ≠ 0) :
    readFloat v = .nan (floatSign v) ((floatFraction v).getLsbD 22) ((floatFraction v).extractLsb' 0 22) := by
  rw [readFloat, if_pos h255, if_neg hf]

end Sys2Proof.Machine
end

