-- ==== Sys2Proof/Laws/PerInstr.lean ====
section
/-! SUPPORT. Statements about every operation, one lemma per constructor. -/

namespace Sys2Proof.Laws

/-- The block's own decoder reads back what the encoder of the host format writes, operand included (rule R47). -/
def IssueRoundTrip.Statement (i : Instr) : Prop := decodeIssue (encode i).1 (encode i).2 = .ok i

theorem IssueRoundTrip.clr : IssueRoundTrip.Statement .clr := rfl

theorem IssueRoundTrip.crc8 (arg : Word) : IssueRoundTrip.Statement (.crc8 arg) := rfl

theorem IssueRoundTrip.chk (g : Word) : IssueRoundTrip.Statement (.chk g) := rfl

theorem IssueRoundTrip.dec3 : IssueRoundTrip.Statement .dec3 := rfl

theorem IssueRoundTrip.dec6 : IssueRoundTrip.Statement .dec6 := rfl

theorem IssueRoundTrip.dec18 : IssueRoundTrip.Statement .dec18 := rfl

theorem IssueRoundTrip.rdfw : IssueRoundTrip.Statement .rdfw := rfl

theorem IssueRoundTrip.srst : IssueRoundTrip.Statement .srst := rfl

theorem IssueRoundTrip.rdint : IssueRoundTrip.Statement .rdint := rfl

theorem IssueRoundTrip.wrint (sec : Word) : IssueRoundTrip.Statement (.wrint sec) := rfl

theorem IssueRoundTrip.rdasc : IssueRoundTrip.Statement .rdasc := rfl

theorem IssueRoundTrip.wrasc (en : Word) : IssueRoundTrip.Statement (.wrasc en) := rfl

theorem IssueRoundTrip.rdfrc : IssueRoundTrip.Statement .rdfrc := rfl

theorem IssueRoundTrip.wrfrc (v : Word) : IssueRoundTrip.Statement (.wrfrc v) := rfl

theorem IssueRoundTrip.rdtoff : IssueRoundTrip.Statement .rdtoff := rfl

theorem IssueRoundTrip.startc (p : Word) : IssueRoundTrip.Statement (.startc p) := rfl

theorem IssueRoundTrip.rdrdy : IssueRoundTrip.Statement .rdrdy := rfl

theorem IssueRoundTrip.stopm : IssueRoundTrip.Statement .stopm := rfl

theorem IssueRoundTrip.rdmeas : IssueRoundTrip.Statement .rdmeas := rfl

end Sys2Proof.Laws
end

