-- ==== Sys2Proof/Laws/Records.lean ====
section
/-! SUPPORT. The host's records: one lemma per field of an updated record, and what each check of rule R153 can
answer. -/

namespace Sys2Proof.Machine

variable (s : State) (a : HostAction)

/-! ## Bringing the records up to date touches nothing else -/

@[simp] theorem State.recorded_status : (s.recorded a).status = s.status := rfl
@[simp] theorem State.recorded_crc : (s.recorded a).crc = s.crc := rfl
@[simp] theorem State.recorded_txLen : (s.recorded a).txLen = s.txLen := rfl
@[simp] theorem State.recorded_expLen : (s.recorded a).expLen = s.expLen := rfl
@[simp] theorem State.recorded_rxLen : (s.recorded a).rxLen = s.rxLen := rfl
@[simp] theorem State.recorded_w : (s.recorded a).w = s.w := rfl
@[simp] theorem State.recorded_tx : (s.recorded a).tx = s.tx := rfl
@[simp] theorem State.recorded_rx : (s.recorded a).rx = s.rx := rfl
@[simp] theorem State.recorded_program : (s.recorded a).program = s.program := rfl
@[simp] theorem State.recorded_valid : (s.recorded a).valid = s.valid := rfl
@[simp] theorem State.recorded_matched : (s.recorded a).matched = s.matched := rfl
@[simp] theorem State.recorded_err : (s.recorded a).err = s.err := rfl
@[simp] theorem State.recorded_ngrp : (s.recorded a).ngrp = s.ngrp := rfl
@[simp] theorem State.recorded_reservedBit : (s.recorded a).reservedBit = s.reservedBit := rfl
@[simp] theorem State.recorded_major : (s.recorded a).major = s.major := rfl
@[simp] theorem State.recorded_minor : (s.recorded a).minor = s.minor := rfl
@[simp] theorem State.recorded_ready : (s.recorded a).ready = s.ready := rfl
@[simp] theorem State.recorded_f (j : Fin 3) : (s.recorded a).f j = s.f j := rfl
@[simp] theorem State.recorded_records : (s.recorded a).records = s.records.after a s := rfl

/-! ## Records after an operation -/

variable (c : Records) (i : Instr)

@[simp] theorem Records.afterIssue_clr (u : State) : c.afterIssue .clr u = c.blockCleared := rfl

/-- Every operation but `CLR`, field by field. -/
theorem Records.afterIssue_eq (u : State) (h : i ≠ .clr) : c.afterIssue i u =
    { transport := c.transport
      frame := if i.buildsFrame then newFrameUse u else c.frame
      reply := c.reply.askedAnew i
      decodable := c.decodable
      loaded := stillAnswers i c.loaded
      result := if decodeLength i = none then stillAnswers i c.result else c.loaded
      last := outputOf i
      unchecked := uncheckedAfter i c.unchecked } := if_neg h

/-- No operation opens or closes a session. -/
@[simp] theorem Records.afterIssue_transport (u : State) : (c.afterIssue i u).transport = c.transport := by
  unfold Records.afterIssue; split <;> rfl

/-- A host with a session open is bound by rule R153 (c), (d). -/
theorem Records.bound_of_connected (h : c.connected = true) : c.bound = true := by
  simp only [Records.connected, decide_eq_true_iff] at h
  simp [Records.bound, h]

/-- Whether a session is open, and whether the host is bound, depends on the transport alone. -/
theorem Records.connected_congr (d : Records) (h : c.transport = d.transport) : c.connected = d.connected := by
  simp only [Records.connected, h]

theorem Records.bound_congr (d : Records) (h : c.transport = d.transport) : c.bound = d.bound := by
  simp only [Records.bound, h]

@[simp] theorem Records.afterIssue_connected (u : State) : (c.afterIssue i u).connected = c.connected :=
  Records.connected_congr _ _ (by simp)

@[simp] theorem Records.afterIssue_bound (u : State) : (c.afterIssue i u).bound = c.bound :=
  Records.bound_congr _ _ (by simp)

/-- What still answers a command answered it before, and is no answer to the command just asked. -/
theorem stillAnswers_eq_some (x : Option Instr) (j : Instr) : stillAnswers i x = some j ↔ x = some j ∧ j ≠ i := by
  unfold stillAnswers
  split
  · next h => subst h; simp; exact fun h => h ▸ rfl
  · next h => exact ⟨fun hx => ⟨hx, fun e => h (by rw [hx, e])⟩, fun hx => hx.1⟩

/-- Asking a command again keeps the bytes of the reply. -/
@[simp] theorem Reply.askedAnew_bytes (reply : Reply) : (reply.askedAnew i).bytes = reply.bytes := by cases reply <;> rfl

@[simp] theorem Reply.askedAnew_command (reply : Reply) :
    (reply.askedAnew i).command = stillAnswers i reply.command := by cases reply <;> rfl

/-- A reply that answers a command, by its parts. -/
theorem Reply.eq_received_some (reply : Reply) (bs : List Byte) :
    reply = .received (some i) bs ↔ reply.bytes = some bs ∧ reply.command = some i := by
  cases reply with
  | received x got => simp [Reply.bytes, Reply.command, and_comm]
  | pending => simp [Reply.bytes]

/-- Bytes the reply covers are the reply or a float pair of a measurement. -/
theorem Reply.covers_iff (reply : Reply) (bs : List Byte) : reply.covers bs = true ↔
    reply.bytes = some bs ∨ ∃ got, reply.bytes = some got ∧ reply.command = some .rdmeas ∧ bs ∈ floatPairsOf got := by
  unfold Reply.covers
  cases reply.bytes with
  | none => simp
  | some got =>
    simp only [Bool.or_eq_true, Bool.and_eq_true, decide_eq_true_iff, Option.some.injEq, exists_eq_left, eq_comm (a := got)]

theorem Reply.mayLoad_iff (reply : Reply) (bs : List Byte) :
    reply.mayLoad bs = true ↔ reply.bytes = some bs ∨ bs.length = 6 := by
  simp only [Reply.mayLoad, Bool.or_eq_true, decide_eq_true_iff]

/-- `blockCleared`, field by field. -/
@[simp] theorem Records.blockCleared_transport : c.blockCleared.transport = c.transport := rfl
@[simp] theorem Records.blockCleared_frame : c.blockCleared.frame = .absent := rfl
@[simp] theorem Records.blockCleared_reply : c.blockCleared.reply = c.reply := rfl
@[simp] theorem Records.blockCleared_decodable : c.blockCleared.decodable = false := rfl
@[simp] theorem Records.blockCleared_loaded : c.blockCleared.loaded = none := rfl
@[simp] theorem Records.blockCleared_result : c.blockCleared.result = none := rfl
@[simp] theorem Records.blockCleared_unchecked : c.blockCleared.unchecked = [] := rfl

/-- `afterLoad`, field by field. -/
@[simp] theorem Records.afterLoad_transport (bs : List Byte) : (c.afterLoad bs).transport = c.transport := rfl
@[simp] theorem Records.afterLoad_connected (bs : List Byte) : (c.afterLoad bs).connected = c.connected := rfl
@[simp] theorem Records.afterLoad_bound (bs : List Byte) : (c.afterLoad bs).bound = c.bound := rfl
@[simp] theorem Records.afterLoad_frame (bs : List Byte) :
    (c.afterLoad bs).frame = if c.frame = .writeFailed then .finished else c.frame := rfl
@[simp] theorem Records.afterLoad_reply (bs : List Byte) : (c.afterLoad bs).reply = c.reply := rfl
@[simp] theorem Records.afterLoad_decodable (bs : List Byte) : (c.afterLoad bs).decodable = c.reply.mayLoad bs := rfl
@[simp] theorem Records.afterLoad_result (bs : List Byte) : (c.afterLoad bs).result = c.result := rfl
@[simp] theorem Records.afterLoad_unchecked (bs : List Byte) : (c.afterLoad bs).unchecked = c.unchecked := rfl

/-- Looking at a register changes at most what is unchecked. -/
@[simp] theorem Records.afterLook_transport (r : HostReg) : (c.afterLook r).transport = c.transport := by
  unfold Records.afterLook; split <;> rfl
@[simp] theorem Records.afterLook_connected (r : HostReg) : (c.afterLook r).connected = c.connected :=
  Records.connected_congr _ _ (by simp)
@[simp] theorem Records.afterLook_bound (r : HostReg) : (c.afterLook r).bound = c.bound :=
  Records.bound_congr _ _ (by simp)
@[simp] theorem Records.afterLook_frame (r : HostReg) : (c.afterLook r).frame = c.frame := by
  unfold Records.afterLook; split <;> rfl
@[simp] theorem Records.afterLook_reply (r : HostReg) : (c.afterLook r).reply = c.reply := by
  unfold Records.afterLook; split <;> rfl
@[simp] theorem Records.afterLook_decodable (r : HostReg) : (c.afterLook r).decodable = c.decodable := by
  unfold Records.afterLook; split <;> rfl
@[simp] theorem Records.afterLook_loaded (r : HostReg) : (c.afterLook r).loaded = c.loaded := by
  unfold Records.afterLook; split <;> rfl
@[simp] theorem Records.afterLook_result (r : HostReg) : (c.afterLook r).result = c.result := by
  unfold Records.afterLook; split <;> rfl
@[simp] theorem Records.afterLook_last (r : HostReg) : (c.afterLook r).last = c.last := by
  unfold Records.afterLook; split <;> rfl

/-- A register other than `STATUS` tells nothing of the errors. -/
theorem Records.afterLook_of_ne (r : HostReg) (h : r ≠ .status) : c.afterLook r = c := if_neg h

/-- After reading `STATUS` the output of the most recent operation is checked, and the others stand as they stood. -/
theorem Records.mem_unchecked_afterLook_status (o : Output) :
    o ∈ (c.afterLook .status).unchecked ↔ o ∈ c.unchecked ∧ c.last ≠ some o := by
  rw [Records.afterLook, if_pos rfl, List.mem_filter, decide_eq_true_iff]
  exact and_congr_right fun _ => not_congr eq_comm

/-- What is unchecked after an operation: its own output if it can raise, and the other outputs as before (rule R142). -/
theorem mem_uncheckedAfter (us : List Output) (o : Output) :
    o ∈ uncheckedAfter i us ↔ (outputOf i = some o ∧ canRaise i = true) ∨ (outputOf i ≠ some o ∧ o ∈ us) := by
  unfold uncheckedAfter
  cases hi : outputOf i with
  | none => simp
  | some p =>
    by_cases hp : o = p
    · subst hp; cases hc : canRaise i <;> simp
    · have hp' : ¬ p = o := fun h => hp h.symm
      cases hc : canRaise i <;> simp [hp, hp']

/-! ## The checks -/

@[simp] theorem contractFault_setProgram (p : List HostAction) :
    contractFault a (s.setProgram p) = contractFault a s := by
  cases a <;> rfl

/-- Before the host's first `open` every action on the block is free of duties. -/
theorem contractFault_issue_of_not_bound (opsel : Byte) (arg : Word) (h : s.records.bound = false) :
    contractFault (.issue opsel arg) s = none := if_pos h

theorem contractFault_loadRx_of_not_bound (bs : List Byte) (h : s.records.bound = false) :
    contractFault (.loadRx bs) s = none := if_neg fun hc => by rw [h] at hc; exact Bool.noConfusion hc.1

/-- From there on, an operation is held to rule R153 (c) and (d). -/
theorem contractFault_issue (opsel : Byte) (arg : Word) (h : s.records.bound = true)
    (hd : decodeIssue opsel arg = .ok i) : contractFault (.issue opsel arg) s = s.records.issueFault i s := by
  simp only [contractFault, h, hd, Bool.true_eq_false, if_false]

theorem contractFault_loadRx (bs : List Byte) (h : s.records.bound = true) (hl : bs.length ≤ 18) :
    contractFault (.loadRx bs) s = s.records.loadFault bs := if_pos ⟨h, hl⟩

/-- An undefined code breaks no duty. -/
theorem contractFault_undefined (opsel : Byte) (arg : Word) (e : DecodeError) (hd : decodeIssue opsel arg = .error e) :
    contractFault (.issue opsel arg) s = none := by
  simp only [contractFault, hd, ite_self]

/-- Which decodes a failure rules out (rule R153 (d), rule R41). -/
theorem Records.forbidsDecode_iff (n : Nat) : c.forbidsDecode n s = true ↔
    c.frame = .readFailed ∨ c.frame = .writeFailed ∧ s.expLen.toNat = n := by
  unfold Records.forbidsDecode
  cases c.frame <;> simp

/-- An operation that breaks no duty (rule R153 (c), (d)). -/
theorem Records.issueFault_eq_none : c.issueFault i s = none ↔
    ¬ (overwritesFrame i = true ∧ c.frame = .untaken) ∧
    ∀ n, decodeLength i = some n → c.decodable = true ∧ c.forbidsDecode n s = false ∧ s.rxLen.toNat = n := by
  unfold Records.issueFault
  by_cases ho : overwritesFrame i = true ∧ c.frame = .untaken
  · rw [if_pos ho]; simp only [reduceCtorEq, false_iff]; exact fun h => h.1 ho
  · rw [if_neg ho]
    cases decodeLength i with
    | none => simp [ho]
    | some n => simp only [ite_eq_left_iff, reduceCtorEq, imp_false, not_not, ho, not_false_iff, true_and,
        Option.some.injEq, forall_eq']

end Sys2Proof.Machine
end

