-- ==== Sys2Proof/Laws/Step.lean ====
section
/-! SUPPORT. What one step can do, said once: it performs the first action of the host's list (rule R9, rule R37), or stops
because that action breaks a duty of the host (rule R153). -/

namespace Sys2Proof.Machine

variable (s : State) (rest : List HostAction)

/-- Nothing asked for: nothing changes. -/
theorem step_idle (h : s.program = []) : step s = .next s := by
  simp [step, takeAction, h, awaitHost]

/-- The first action of the list, whole. -/
theorem step_action (a : HostAction) (h : s.program = a :: rest) :
    step s = match contractFault a s with
      | some f => .fault f
      | none => keepRecords a (performAction a (s.setProgram rest)) := by
  cases hc : contractFault a s <;> simp [step, takeAction, h, hc]

/-- An action that breaks a duty. -/
theorem step_of_fault (a : HostAction) (f : Fault) (h : s.program = a :: rest) (hf : contractFault a s = some f) :
    step s = .fault f := by
  rw [step_action s rest a h, hf]

/-- An action that breaks none. -/
theorem step_of_no_fault (a : HostAction) (h : s.program = a :: rest) (hf : contractFault a s = none) :
    step s = keepRecords a (performAction a (s.setProgram rest)) := by
  rw [step_action s rest a h, hf]

/-- An action whose performance answers a next state. -/
theorem step_eq_next (a : HostAction) (u : State) (h : s.program = a :: rest) (hf : contractFault a s = none)
    (hu : performAction a (s.setProgram rest) = .next u) : step s = .next (u.recorded a) := by
  rw [step_of_no_fault s rest a h hf, hu, keepRecords]

/-- Everything a step can do when it answers a next state. -/
theorem step_inv (t : State) (h : step s = .next t) :
    (s.program = [] ∧ t = s) ∨
    ∃ a rest u, s.program = a :: rest ∧ contractFault a s = none ∧
      performAction a (s.setProgram rest) = .next u ∧ t = u.recorded a := by
  cases hp : s.program with
  | nil => exact .inl ⟨rfl, by rw [step_idle s hp] at h; exact (Host.Outcome.next.inj h).symm⟩
  | cons a rest =>
    rw [step_action s rest a hp] at h
    cases hf : contractFault a s with
    | some f => rw [hf] at h; cases h
    | none =>
      rw [hf] at h
      cases hu : performAction a (s.setProgram rest) with
      | next u =>
        rw [hu] at h
        exact .inr ⟨a, rest, u, rfl, hf, hu, (Host.Outcome.next.inj h).symm⟩
      | fault f => rw [hu] at h; cases h
      | refused f => rw [hu] at h; cases h

/-- The bytes that answer the command in `TX` (rule R17, rule R41). -/
theorem answersCommand_iff (bs : List Byte) :
    answersCommand s bs = true ↔ s.expLen.toNat ≠ 0 ∧ bs.length = s.expLen.toNat := by
  simp only [answersCommand, Bool.and_eq_true, decide_eq_true_iff]

/-- `LOADRX`, whole (rule R18). -/
theorem performLoadRx_eq (bs : List Byte) :
    performLoadRx bs s = if bs.length ≤ 18
      then .next (s.setReceived (s.rx.writeBytes 0 (paddedLoad bs)) (BitVec.ofNat 5 bs.length))
      else .refused .loadTooLong := rfl

/-- `LOADRX` writes all 18 bytes (rule R33). -/
theorem length_paddedLoad (bs : List Byte) (h : bs.length ≤ 18) : (paddedLoad bs).length = 18 := by
  simp [paddedLoad, Config.rxSize, h]

/-- What `RX` reads after a load: the bytes given, then zeros up to the last of the 18; nothing outside (rule R18). -/
theorem rx_read_after_load (m : Memory) (bs : List Byte) (a : Nat) (hm : m.wf = true) (h : bs.length ≤ 18) :
    (m.writeBytes 0 (paddedLoad bs)).read a = if a < 18 then bs.getD a 0 else m.read a := by
  rw [Memory.read_writeBytes _ _ _ _ hm, length_paddedLoad bs h]
  by_cases ha : a < 18
  · rw [if_pos ⟨Nat.zero_le a, by omega⟩, if_pos ha, Nat.sub_zero, paddedLoad]
    by_cases hb : a < bs.length
    · rw [List.getD_append _ _ _ _ hb]
    · rw [List.getD_append_right _ _ _ _ (by omega), List.getD_eq_default bs 0 (by omega)]
      simp [List.getD_eq_getElem?_getD, List.getElem?_replicate]
      split <;> rfl
  · rw [if_neg (by omega), if_neg ha]

/-- The length a load of at most 18 bytes leaves (rule R18). -/
theorem rxLen_after_load (bs : List Byte) (h : bs.length ≤ 18) : (BitVec.ofNat 5 bs.length).toNat = bs.length := by
  rw [BitVec.toNat_ofNat]
  exact Nat.mod_eq_of_lt (by omega)

end Sys2Proof.Machine
end

