-- ==== Sys2Proof/Tests/Slice0.lean ====
section
/-! SUPPORT. Own tests. Expected values are those of spec/95_test_vectors.md (its vector is named at each test) and of
the encoding tables of spec/30_encoding.md; then, for each statement with hypotheses, a witness that meets them. -/

namespace Sys2Proof.Tests

open Sys2Proof.Machine Sys2Proof.Claims

-- One kernel check after another: run side by side, these many small checks reserve a thread's stack each.
set_option Elab.async false

/-! ## Helpers -/

/-- The outcome is a next state with this property. -/
def nextIs (p : State → Bool) : Host.Outcome State Fault Refusal → Bool
  | .next t => p t
  | .fault _ => false
  | .refused _ => false

/-- The outcome is this fault. -/
def faultIs (f : Fault) : Host.Outcome State Fault Refusal → Bool
  | .next _ => false
  | .fault g => f == g
  | .refused _ => false

/-- The outcome is this refusal. -/
def refusalIs (r : Refusal) : Host.Outcome State Fault Refusal → Bool
  | .next _ => false
  | .fault _ => false
  | .refused q => r == q

/-- The reset state with these bytes received. -/
def loaded (bs : List Byte) : State :=
  State.reset.setReceived (State.reset.rx.writeBytes 0 bs) (BitVec.ofNat 5 bs.length)

/-- The measurement response of vector V-D1. -/
def sample : List Byte :=
  [0x44, 0x00, 0x8B, 0x00, 0x00, 0x81, 0x41, 0xAC, 0x7D, 0x00, 0x00, 0x81, 0x42, 0x34, 0xD0, 0x00, 0x00, 0x81]

/-- The records of a host whose `RDMEAS` was answered by `sample`, loaded, decoded and checked. -/
def host : Records where
  transport := .opened
  frame := .finished
  reply := .received (some .rdmeas) sample
  decodable := true
  loaded := some .rdmeas
  result := some .rdmeas
  last := some .result
  unchecked := []

/-- The same host, its session closed. -/
def parted : Records := { host with transport := .closed }

/-- The same records of a host that never called `open`. -/
def alone : Records := { host with transport := .unused }

/-- A state in the middle of work: the response of V-D1 loaded and decoded, `RDMEAS` in `TX`, `CRC` of `BE EF`. -/
def busy : State :=
  (((((loaded sample).setFrame [(0, 0x03)] 2 18).setCrc 0x92).setWords
    #v[0x4400, 0x0000, 0x41AC, 0x0000, 0x4234, 0x0000]).setResult true 6).setRecords alone

/-- A state about to perform this action. -/
def about (a : HostAction) : State := busy.setProgram [a]

/-- The same state with these records of a connected host. -/
def hosted (c : Records) (a : HostAction) : State := (about a).setRecords c

/-- The host with a frame to be taken, and with a frame that was written. -/
def untaken : Records := { host with frame := .untaken }
def sent : Records := { host with frame := .sent }

/-- The host after a write that failed, and after a read that failed. -/
def writeFailed : Records := { host with frame := .writeFailed }
def readFailed : Records := { host with frame := .readFailed }

/-- The result has only this many groups. -/
def groups (n : BitVec 3) (s : State) : State := s.setResult true n

/-- The frame in `TX` with its lengths and the error code. -/
def frameIs (bytes : List Byte) (txLen : BitVec 3) (expLen : BitVec 5) (err : BitVec 2) (t : State) : Bool :=
  t.tx.readBytes 0 5 == bytes && t.txLen == txLen && t.expLen == expLen && t.err == err

/-! ## Well-formedness: each check refuses an ill-formed term -/

theorem test_wellFormed_refuses_wrint_zero : (Instr.wrint 0).wellFormed = false := by decide
theorem test_wellFormed_refuses_wrint_256 : (Instr.wrint 256).wellFormed = false := by decide
theorem test_wellFormed_refuses_wrasc_two : (Instr.wrasc 2).wellFormed = false := by decide
theorem test_wellFormed_accepts_bounds :
    (Instr.wrint 1).wellFormed && (Instr.wrint 255).wellFormed && (Instr.wrasc 0).wellFormed &&
      (Instr.wrasc 1).wellFormed = true := by decide

/-! ## Decoding: the codes and the frames of Table E-4, written out -/

theorem test_opsel_words :
    [0x00, 0x01, 0x02, 0x03, 0x04, 0x05].map (decodeTableWord 8) =
      [some .clr, some (.crc8 0), some (.chk 0), some .dec3, some .dec6, some .dec18] := by decide

theorem test_opsel_encode_codes :
    [Instr.rdfw, .srst, .rdint, .wrint 7, .rdasc, .wrasc 7, .rdfrc, .wrfrc 7, .rdtoff, .startc 7, .rdrdy, .stopm,
      .rdmeas].map (fun i => (decodeIssue (encode i).1 7).toOption == some i && (encode i).1.toNat == 0x10 +
        ([Instr.rdfw, .srst, .rdint, .wrint 7, .rdasc, .wrasc 7, .rdfrc, .wrfrc 7, .rdtoff, .startc 7, .rdrdy,
          .stopm, .rdmeas].idxOf i)) = List.replicate 13 true := by decide

theorem test_undefined_codes :
    [0x06, 0x0F, 0x1D, 0xFF].map (decodeTableWord 8) = [none, none, none, none] := by decide

theorem test_f2_words :
    [0xD100, 0xD304, 0x4600, 0x5306, 0x5204, 0x5403, 0x0202, 0x0104, 0x0300].map (decodeTableWord 16) =
      [some .rdfw, some .srst, some .rdint, some .rdasc, some .rdfrc, some .rdtoff, some .rdrdy, some .stopm,
        some .rdmeas] := by decide

/-- `46 00 00 02 E3`, `53 06 00 01 B0`, `52 04 01 90 4C`, `00 10 03 CC 96` (V-E4, V-E11, V-E14, V-E19). -/
theorem test_f5_words :
    [0x46000002E3, 0x53060001B0, 0x520401904C, 0x001003CC96].map (decodeTableWord 40) =
      [some (.wrint 2), some (.wrasc 1), some (.wrfrc 0x0190), some (.startc 972)] := by decide +kernel

theorem test_f5_wrong_checksum_is_no_frame : decodeTableWord 40 0x001003CC97 = none := by decide +kernel

theorem test_f5_out_of_range_is_no_frame :
    [0x4600000081, 0x4600010075, 0x53060002E3].map (decodeTableWord 40) = [none, none, none] := by decide +kernel

theorem test_f2_unknown_register : decodeTableWord 16 0x0010 = none ∧ decodeTableWord 16 0xD000 = none := by decide

theorem test_other_lengths_are_no_frame : decodeTableWord 24 0x461234 = none ∧ parseFrame [] = .error .frameLength := by
  decide

/-! ## Checksum family -/

/-- S1, S2, S3 and further rows of section 2. -/
theorem test_crc8_values :
    [crc8 0xBE 0xEF, crc8 0x00 0x00, crc8 0x00 0x01, crc8 0x01 0x00, crc8 0x01 0x31, crc8 0x12 0x34, crc8 0xFF 0x00,
      crc8 0xFF 0xFF, crc8 0x03 0xCC] = [0x92, 0x81, 0xB0, 0x75, 0x81, 0x37, 0x00, 0xAC, 0x96] := by decide +kernel

/-- Section 3: entries of the table `T`. -/
theorem test_crcTable_values :
    [crcTable 0x00, crcTable 0x01, crcTable 0x10, crcTable 0xAC, crcTable 0xFF] = [0x00, 0x31, 0x43, 0x81, 0xAC] := by
  decide +kernel

theorem test_crc8_polynomial_form : crc8Poly 0xBE 0xEF = 0x92 := by decide +kernel

theorem test_execCrc8 : nextIs (fun t => t.crc == 0x92 && t.err == 0) (execCrc8 0xBEEF busy) = true := by
  decide +kernel

theorem test_execCrc8_byte_order : nextIs (fun t => t.crc == 0x75) (execCrc8 0x0100 State.reset) = true := by
  decide +kernel

/-- V-C1, V-C2, V-C3. -/
theorem test_execChk_match :
    (nextIs (fun t => t.matched && t.err == 0) (execChk 0 (loaded [0xBE, 0xEF, 0x92])) &&
      nextIs (fun t => !t.matched && t.err == 0) (execChk 0 (loaded [0xBE, 0xEF, 0x93])) &&
      nextIs (fun t => !t.matched && t.err == 0) (execChk 0 (loaded [0x00, 0x00, 0x00]))) = true := by decide +kernel

/-- V-C6, V-C7, V-C8. -/
theorem test_execChk_length :
    (nextIs (fun t => !t.matched && t.err == 2) (execChk 0 (loaded [0x01, 0x01])) &&
      nextIs (fun t => !t.matched && t.err == 2) (execChk 1 (loaded [0x00, 0x01, 0xB0, 0x00, 0x02])) &&
      nextIs (fun t => t.matched && t.err == 0 && t.valid) (execChk 5 busy) &&
      nextIs (fun t => !t.matched && t.err == 2 && t.valid) (execChk 6 busy) &&
      nextIs (fun t => t.err == 2) (execChk 65535 busy)) = true := by decide +kernel

/-! ## Encoder family: V-E1 to V-E26, from a state with a frame and a result -/

theorem test_execRdfw : nextIs (frameIs [0xD1, 0x00, 0, 0, 0] 2 3 0) (execRdfw busy) = true := by decide +kernel
theorem test_execSrst : nextIs (frameIs [0xD3, 0x04, 0, 0, 0] 2 0 0) (execSrst busy) = true := by decide +kernel
theorem test_execRdint : nextIs (frameIs [0x46, 0x00, 0, 0, 0] 2 3 0) (execRdint busy) = true := by decide +kernel

theorem test_execWrint :
    (nextIs (frameIs [0x46, 0, 0, 2, 0xE3] 5 0 0) (execWrint 2 busy) &&
      nextIs (frameIs [0x46, 0, 0, 1, 0xB0] 5 0 0) (execWrint 1 busy) &&
      nextIs (frameIs [0x46, 0, 0, 0xFF, 0x2D] 5 0 0) (execWrint 255 busy)) = true := by decide +kernel

theorem test_execWrint_refused :
    (nextIs (frameIs [0, 0, 0, 0, 0] 0 0 3) (execWrint 0 busy) &&
      nextIs (frameIs [0, 0, 0, 0, 0] 0 0 3) (execWrint 256 busy)) = true := by decide +kernel

theorem test_execRdasc : nextIs (frameIs [0x53, 0x06, 0, 0, 0] 2 3 0) (execRdasc busy) = true := by decide +kernel

theorem test_execWrasc :
    (nextIs (frameIs [0x53, 0x06, 0, 0, 0x81] 5 0 0) (execWrasc 0 busy) &&
      nextIs (frameIs [0x53, 0x06, 0, 1, 0xB0] 5 0 0) (execWrasc 1 busy)) = true := by decide +kernel

theorem test_execWrasc_refused : nextIs (frameIs [0, 0, 0, 0, 0] 0 0 3) (execWrasc 2 busy) = true := by decide +kernel
theorem test_execRdfrc : nextIs (frameIs [0x52, 0x04, 0, 0, 0] 2 3 0) (execRdfrc busy) = true := by decide +kernel

theorem test_execWrfrc :
    (nextIs (frameIs [0x52, 0x04, 0x01, 0x90, 0x4C] 5 0 0) (execWrfrc 400 busy) &&
      nextIs (frameIs [0x52, 0x04, 0xFF, 0xFF, 0xAC] 5 0 0) (execWrfrc 65535 busy)) = true := by decide +kernel

theorem test_execRdtoff : nextIs (frameIs [0x54, 0x03, 0, 0, 0] 2 3 0) (execRdtoff busy) = true := by decide +kernel

theorem test_execStartc :
    (nextIs (frameIs [0x00, 0x10, 0x03, 0xCC, 0x96] 5 0 0) (execStartc 972 busy) &&
      nextIs (frameIs [0x00, 0x10, 0x00, 0x00, 0x81] 5 0 0) (execStartc 0 busy)) = true := by decide +kernel

/-- V-E20: `WRPRESS 1013`. -/
theorem test_wrpress :
    nextIs (frameIs [0x00, 0x10, 0x03, 0xF5, 0xDB] 5 0 0) (exec (Instr.wrpress 1013) busy) = true := by decide +kernel

theorem test_execRdrdy : nextIs (frameIs [0x02, 0x02, 0, 0, 0] 2 3 0) (execRdrdy busy) = true := by decide +kernel
theorem test_execStopm : nextIs (frameIs [0x01, 0x04, 0, 0, 0] 2 0 0) (execStopm busy) = true := by decide +kernel
theorem test_execRdmeas : nextIs (frameIs [0x03, 0x00, 0, 0, 0] 2 18 0) (execRdmeas busy) = true := by decide +kernel

/-! ## Decoder family -/

/-- V-D13, V-D15, V-D17 (the earlier words are cleared). -/
theorem test_execDec3 :
    (nextIs (fun t => t.w[0] == 0x0101 && t.ready && t.status == 0x11) (execDec3 (loaded [0x01, 0x01, 0x44])) &&
      nextIs (fun t => t.major == 3 && t.minor == 0x42) (execDec3 (loaded [0x03, 0x42, 0xF3])) &&
      nextIs (fun t => t.w == #v[1, 0, 0, 0, 0, 0] && t.ngrp == 1)
        (execDec3 (busy.setReceived [(1, 0x01), (2, 0xB0)] 3))) = true := by decide +kernel

/-- V-D10, V-D9, V-D11. -/
theorem test_execDec3_fails :
    (nextIs (fun t => t.status == 0x08) (execDec3 State.reset) &&
      nextIs (fun t => t.status == 0x08 && t.w == Vector.replicate 6 0) (execDec3 busy) &&
      nextIs (fun t => t.status == 0x04) (execDec3 (loaded [0, 0, 0]))) = true := by decide +kernel

/-- V-D7, and a row of section 6: a signalling NaN with payload. -/
theorem test_execDec6 :
    (nextIs (fun t => t.w == #v[0x41AC, 0, 0, 0, 0, 0] && t.f 0 == 0x41AC0000 && t.status == 0x21)
        (execDec6 (loaded [0x41, 0xAC, 0x7D, 0x00, 0x00, 0x81])) &&
      nextIs (fun t => t.f 0 == 0x7FA00001) (execDec6 (loaded [0x7F, 0xA0, 0xDF, 0x00, 0x01, 0xB0]))) = true := by
  decide +kernel

/-- One group of the two altered. -/
theorem test_execDec6_fails :
    nextIs (fun t => t.status == 0x04 && t.w == Vector.replicate 6 0)
      (execDec6 (loaded [0x41, 0xAC, 0x7D, 0x00, 0x00, 0x82])) = true := by decide +kernel

/-- V-D1. -/
theorem test_execDec18 :
    nextIs (fun t => t.w == #v[0x4400, 0, 0x41AC, 0, 0x4234, 0] && t.status == 0x61 &&
        t.channel .co2 == 0x44000000 && t.channel .temperature == 0x41AC0000 && t.channel .humidity == 0x42340000)
      (execDec18 (loaded sample)) = true := by decide +kernel

/-- V-D4, V-D5, V-D8. -/
theorem test_execDec18_fails :
    (nextIs (fun t => t.status == 0x04 && t.w == Vector.replicate 6 0) (execDec18 (loaded (sample.set 8 0x7C))) &&
      nextIs (fun t => t.status == 0x04) (execDec18 (loaded (sample.set 0 0x45))) &&
      nextIs (fun t => t.status == 0x08) (execDec18 (loaded [0x00, 0x01, 0xB0]))) = true := by decide +kernel

/-! ## Floats: values of section 6 -/

theorem test_readFloat_values :
    readFloat 0x41AC0000 = .finite false 11272192 (-19) ∧ readFloat 0x80000000 = .finite true 0 (-149) ∧
      readFloat 0x00000001 = .finite false 1 (-149) ∧ readFloat 0xFF800000 = .infinity true := by decide +kernel

theorem test_readFloat_nans :
    readFloat 0x7FC00000 = .nan false true 0 ∧ readFloat 0x7FA00001 = .nan false false 0x200001 ∧
      readFloat 0xFFC12345 = .nan true true 0x012345 := by decide +kernel

/-! ## System operations, host actions, the step -/

theorem test_execClr : nextIs (fun t => t.setRecords Records.initial == State.reset) (execClr busy) = true := by decide +kernel

/-- P5: an undefined `OPSEL` with `VALID = 1`, `NGRP = 1` leaves `STATUS = 0x1D`. -/
theorem test_undefined_opsel :
    nextIs (fun t => t.status == 0x1D)
      (step ((State.reset.setResult true 1).setProgram [.issue 0x06 0])) = true := by decide +kernel

/-- V-D19: `LOADRX` leaves an error standing. -/
theorem test_loadRx :
    nextIs (fun t => t.status == 0x04 && t.rxLen == 3 && t.rx == [(1, 0x01), (2, 0xB0)])
      (performLoadRx [0x00, 0x01, 0xB0] ((loaded sample).setErr .checksumError)) = true := by decide +kernel

theorem test_loadRx_nineteen_bytes : refusalIs .loadTooLong (performLoadRx (0 :: sample) busy) = true := by
  decide +kernel

/-- R105, R152: no result after reset and no frame; without a session nothing is sent, and a result is used. -/
theorem test_uses_of_nothing :
    (faultIs .resultNotValid (step (State.reset.setProgram [.consume .ready .rdrdy])) &&
      faultIs .emptyFrame (step (State.reset.setProgram [.send true])) &&
      faultIs .notConnected (step (about (.send true))) &&
      nextIs (fun _ => true) (step (about (.consume (.f 2) .rdmeas)))) = true := by
  decide +kernel

theorem test_readHostReg :
    readHostReg busy (.f 1) = 0x41AC0000 ∧ readHostReg busy .status = 0x61 ∧ readHostReg busy (.rx 17) = 0x81 := by
  decide +kernel

theorem test_withFetchWord :
    (nextIs (fun t => t.status == 0x08) (step (State.reset.withFetchWord 8 0x05)) &&
      nextIs (frameIs [0x00, 0x10, 0x03, 0xCC, 0x96] 5 0 0) (step (State.reset.withFetchWord 40 0x001003CC96)) &&
      nextIs (frameIs [0x03, 0x00, 0, 0, 0] 2 18 0) (step (State.reset.withFetchWord 16 0x0300))) = true := by
  decide +kernel

/-! ## The contract of the host: rule R153 (c) to (f), rule R41, rule R121, rule R13 -/

/-- (c). -/
theorem test_untaken_frame :
    (faultIs .frameNotTaken (step (hosted untaken (.issue 0x1A 0))) &&
      faultIs .frameNotTaken (step (hosted untaken (.issue 0x00 0))) &&
      nextIs (frameIs [0x02, 0x02, 0, 0, 0] 2 3 0) (step (hosted host (.issue 0x1A 0)))) = true := by decide +kernel

/-- (d): loading; R102: the 6 bytes of V-D7, which come from no read; a host that never called `open`
loads anything (R158). -/
theorem test_load_one_reply :
    (faultIs .loadNotOneReply (step (hosted host (.loadRx (sample.take 3)))) &&
      faultIs .loadNotOneReply (step (hosted { host with reply := .pending } (.loadRx sample))) &&
      nextIs (fun t => t.rxLen == 18 && t.records.loaded == some .rdmeas) (step (hosted host (.loadRx sample))) &&
      nextIs (fun t => t.rxLen == 6 && t.rx.read 3 == 0x42)
        (step (hosted { host with reply := .pending } (.loadRx [0x41, 0xAC, 0x7D, 0x42, 0x34, 0xD0]))) &&
      nextIs (fun t => t.rxLen == 3) (step (about (.loadRx (sample.take 3))))) = true := by
  decide +kernel

/-- (d): decoding, and by a host that never called `open`. -/
theorem test_decode_in_turn :
    (faultIs .decodeOutOfTurn (step (hosted host (.issue 0x03 0))) &&
      faultIs .decodeOutOfTurn (step (hosted { host with decodable := false } (.issue 0x05 0))) &&
      nextIs (fun t => t.status == 0x61) (step (hosted { host with loaded := none } (.issue 0x05 0))) &&
      nextIs (fun t => t.status == 0x08) (step (about (.issue 0x03 0)))) = true := by decide +kernel

/-- R37: V-D1 loaded, `RDMEAS` built again, `DEC18` reads what was loaded; its result answers no command in question. -/
theorem test_decode_after_build :
    nextIs (fun t => t.status == 0x61 && t.f 0 == 0x44000000 && t.records.result == none)
      (afterSteps 3 ((hosted host .reset).setProgram [.loadRx sample, .issue 0x1C 0, .issue 0x05 0])) = true := by
  decide +kernel

/-- R41: a write or a read fails, and the exchange is not decoded; the next command begins another. -/
theorem test_failed_exchange :
    (faultIs .decodeOutOfTurn (afterSteps 2 ((hosted untaken .reset).setProgram [.send false, .issue 0x05 0])) &&
      faultIs .noReplyExpected (afterSteps 2 ((hosted untaken .reset).setProgram [.send false, .receive none])) &&
      faultIs .noReplyExpected (afterSteps 2 ((hosted sent .reset).setProgram [.receive none, .receive (some sample)])) &&
      faultIs .decodeOutOfTurn (afterSteps 2 ((hosted sent .reset).setProgram [.receive none, .issue 0x05 0])) &&
      faultIs .decodeOutOfTurn (afterSteps 3
        ((hosted sent .reset).setProgram [.receive none, .loadRx (sample.take 6), .issue 0x04 0])) &&
      nextIs (frameIs [0x02, 0x02, 0, 0, 0] 2 3 0) (step (hosted writeFailed (.issue 0x1A 0))) &&
      nextIs (frameIs [0x02, 0x02, 0, 0, 0] 2 3 0) (step (hosted readFailed (.issue 0x1A 0)))) = true := by
  decide +kernel

/-- R37: V-D1 loaded after a write that failed, of a command without a response (`STARTC 972`) and of one with another
(`RDRDY`), before it, and without a load after it of the same response (`RDMEAS`). -/
theorem test_decode_after_failed_write :
    (nextIs (fun t => t.status == 0x61 && t.f 0 == 0x44000000) (afterSteps 4
        ((hosted host .reset).setProgram [.issue 0x19 972, .send false, .loadRx sample, .issue 0x05 0])) &&
      nextIs (fun t => t.status == 0x61 && t.records.result == some .rdmeas) (afterSteps 3
        ((hosted host .reset).setProgram [.issue 0x1A 0, .send false, .issue 0x05 0])) &&
      nextIs (fun t => t.status == 0x61) (afterSteps 4
        ((hosted host .reset).setProgram [.issue 0x1C 0, .send false, .loadRx sample, .issue 0x05 0])) &&
      faultIs .decodeOutOfTurn (afterSteps 3
        ((hosted host .reset).setProgram [.issue 0x1C 0, .send false, .issue 0x05 0]))) = true := by decide +kernel

/-- R37: V-D1 loaded, then a read of `RDRDY` that fails, then `RDRDY` again, here with its answer: `DEC18` reads what was
loaded, and what was read before may be loaded again. -/
theorem test_decode_after_failed_read :
    (nextIs (fun t => t.status == 0x61 && t.f 0 == 0x44000000 && t.records.result == some .rdmeas) (afterSteps 8
        ((hosted host .reset).setProgram [.loadRx sample, .issue 0x1A 0, .send true, .receive none, .issue 0x1A 0,
          .send true, .receive (some [0x00, 0x01, 0xB0]), .issue 0x05 0])) &&
      nextIs (fun t => t.status == 0x61) (afterSteps 6
        ((hosted host .reset).setProgram [.issue 0x1A 0, .send true, .receive none, .loadRx sample, .issue 0x1A 0,
          .issue 0x05 0]))) = true := by decide +kernel

/-- (c), (d): closing the session, or failing to open one, frees the host of neither. -/
theorem test_duties_without_session :
    (faultIs .decodeOutOfTurn (afterSteps 3
        ((hosted sent .reset).setProgram [.receive none, .disconnect, .issue 0x05 0])) &&
      faultIs .frameNotTaken (afterSteps 3
        ((hosted host .reset).setProgram [.issue 0x10 0, .disconnect, .issue 0x1A 0])) &&
      faultIs .loadNotOneReply (afterSteps 2
        ((about .reset).setProgram [.connect false, .loadRx (sample.take 3)])) &&
      nextIs (fun t => t.status == 0x61) (afterSteps 2
        ((hosted host .reset).setProgram [.disconnect, .issue 0x05 0]))) = true := by decide +kernel

/-- (c), (f), U10: closing and opening a session ends no duty. -/
theorem test_reconnect :
    (faultIs .frameSentTwice
        (afterSteps 3 ((hosted sent .reset).setProgram [.disconnect, .connect true, .send true])) &&
      faultIs .errorNotChecked (afterSteps 3
        ((hosted { untaken with unchecked := [.frame] } .reset).setProgram [.disconnect, .connect true, .send true])) &&
      faultIs .frameNotTaken
        (afterSteps 3 ((hosted untaken .reset).setProgram [.disconnect, .connect true, .issue 0x1A 0])) &&
      nextIs (fun _ => true)
        (afterSteps 3 ((hosted sent .reset).setProgram [.disconnect, .connect true, .issue 0x1A 0]))) = true := by
  decide +kernel

/-- R121: `F[0]` with `NGRP = 1`, `F[1]` and `F[2]` with `NGRP = 2` carry no measurement; the others do. -/
theorem test_float_views_carry :
    (faultIs .resultNotCarried (step (groups 1 (hosted host (.consume (.f 0) .rdmeas)))) &&
      faultIs .resultNotCarried (step (groups 2 (hosted host (.consume (.f 1) .rdmeas)))) &&
      faultIs .resultNotCarried (step (groups 2 (hosted host (.consume (.f 2) .rdmeas)))) &&
      nextIs (fun _ => true) (step (groups 2 (hosted host (.consume (.f 0) .rdmeas)))) &&
      nextIs (fun _ => true) (step (hosted host (.consume (.f 2) .rdmeas)))) = true := by decide +kernel

/-- (e), R13, U6: a result for another command, a named view of another command, a named view of a measurement. -/
theorem test_other_command :
    (faultIs .resultOfOtherCommand (step (hosted host (.consume (.w 0) .rdrdy))) &&
      faultIs .resultOfOtherCommand (step (groups 1 (hosted { host with result := some .rdasc } (.consume .ready .rdasc)))) &&
      faultIs .resultNotCarried (step (hosted host (.consume .major .rdfw))) &&
      nextIs (fun _ => true) (step (groups 1 (hosted { host with result := some .rdrdy } (.consume .ready .rdrdy))))) =
        true := by
  decide +kernel

/-- (f), U10: an error not checked, a frame sent twice. -/
theorem test_unchecked_and_resent :
    (faultIs .errorNotChecked (step (hosted { host with unchecked := [.result] } (.consume (.w 0) .rdmeas))) &&
      faultIs .errorNotChecked (step (hosted { untaken with unchecked := [.frame] } (.send true))) &&
      faultIs .frameSentTwice (step (hosted host (.send true))) &&
      faultIs .frameSentTwice (step (hosted writeFailed (.send true))) &&
      nextIs (fun t => t.records == sent) (step (hosted untaken (.send true)))) = true := by
  decide +kernel

/-- R41: the transport gives `EXPLEN` bytes when a response is due, to one host; opening a session may fail. -/
theorem test_transport :
    (refusalIs .replyLength (step (hosted sent (.receive (some (0 :: sample))))) &&
      faultIs .noReplyExpected (step (hosted untaken (.receive none))) &&
      nextIs (fun t => t.records == host) (step (hosted { sent with reply := .pending } (.receive (some sample)))) &&
      refusalIs .secondHost (step (hosted host (.connect true))) && faultIs .notConnected (step (about .disconnect)) &&
      nextIs (fun t => t.records == parted) (step (about (.connect false))) &&
      nextIs (fun t => t.records == parted) (step (hosted host .disconnect))) = true := by
  decide +kernel

/-! ## Witnesses: for each statement with hypotheses, a state and operands that meet them together -/

theorem goes_on {o : Host.Outcome State Fault Refusal} (h : nextIs (fun _ => true) o = true) : ∃ t, o = .next t := by
  cases o with
  | next t => exact ⟨t, rfl⟩
  | fault _ => cases h
  | refused _ => cases h

theorem busy_legal : LegalValues busy where
  txLen_legal := by decide +kernel
  expLen_legal := by decide +kernel
  rxLen_legal := by decide +kernel
  ngrp_legal := by decide +kernel
  valid_iff := by decide +kernel

/-- A state with a result, a frame and a full receive buffer satisfies the whole invariant. -/
theorem busy_inv : BlockInv busy where
  legal := busy_legal
  kept :=
    { tx_wf := by decide +kernel
      rx_wf := by decide +kernel
      tx_tail := by decide +kernel
      rx_tail := by decide +kernel
      reserved_zero := by decide +kernel
      words_tail := by decide +kernel
      no_frame := by decide +kernel
      frame_parses := fun _ => ⟨.rdmeas, by decide +kernel⟩ }
  records :=
    { frame_absent := by decide +kernel
      reply_length := fun _ h => by cases h; exact .inr rfl
      reply_answers := fun _ _ h => by cases h; rfl
      decodable_length := fun _ => .inr (.inr (by decide +kernel))
      loaded_decodable := fun _ => rfl
      loaded_length := fun _ h => by cases h; exact .inl (by decide +kernel)
      result_groups := fun _ h _ => by cases h; exact .inl (by decide +kernel) }

/-- With a session open too. -/
theorem hosted_inv (a : HostAction) : BlockInv (hosted host a) :=
  ⟨⟨busy_legal.1, busy_legal.2, busy_legal.3, busy_legal.4, busy_legal.5⟩,
    ⟨busy_inv.kept.1, busy_inv.kept.2, busy_inv.kept.3, busy_inv.kept.4, busy_inv.kept.5, busy_inv.kept.6,
      busy_inv.kept.7, busy_inv.kept.8⟩,
    ⟨busy_inv.records.1, busy_inv.records.2, busy_inv.records.3, busy_inv.records.4, busy_inv.records.5,
      busy_inv.records.6, busy_inv.records.7⟩⟩

/-- A host that never called `open` and one that did, a frame taken and one to be taken, and the state that
issues `CLR` in its place. -/
theorem witness_ResetInputEqualsClr :
    ((about .reset).program = .reset :: [] ∧ (about (.issue 0x00 7)).setProgram [] = (about .reset).setProgram [] ∧
      (about (.issue 0x00 7)).program = .issue 0x00 7 :: [] ∧ (about .reset).records.bound = false) ∧
    ((hosted host .reset).program = .reset :: [] ∧
      (hosted host (.issue 0x00 7)).setProgram [] = (hosted host .reset).setProgram [] ∧
      (hosted host .reset).records.bound = true ∧ (hosted host .reset).records.frame ≠ .untaken) ∧
    (hosted untaken .reset).program = .reset :: [] ∧ (hosted untaken .reset).records.frame = .untaken :=
  ⟨⟨rfl, rfl, rfl, rfl⟩, ⟨rfl, rfl, rfl, by decide⟩, rfl, rfl⟩

/-- A host that never called `open`; one that did, a duty broken, and none broken. -/
theorem witness_StepRunsIssuedOperation :
    ((about (.issue 0x01 0xBEEF)).program = .issue 0x01 0xBEEF :: [] ∧
      (about (.issue 0x01 0xBEEF)).records.bound = false ∧ decodeIssue 0x01 0xBEEF = .ok (.crc8 0xBEEF)) ∧
    ((hosted parted (.issue 0x03 0)).program = .issue 0x03 0 :: [] ∧
      (hosted parted (.issue 0x03 0)).records.bound = true ∧ decodeIssue 0x03 0 = .ok .dec3 ∧
      (hosted parted (.issue 0x03 0)).records.issueFault .dec3 (hosted parted (.issue 0x03 0)) = some .decodeOutOfTurn) ∧
    (hosted host (.issue 0x05 0)).program = .issue 0x05 0 :: [] ∧ decodeIssue 0x05 0 = .ok .dec18 ∧
    (hosted host (.issue 0x05 0)).records.issueFault .dec18 (hosted host (.issue 0x05 0)) = none :=
  ⟨⟨rfl, rfl, rfl⟩, ⟨rfl, rfl, rfl, by decide +kernel⟩, rfl, rfl, by decide +kernel⟩

/-- The boundaries of the undefined codes, and the defined codes beside them. -/
theorem witness_UndefinedOpselOnlyRaises :
    (∀ o ∈ [(0x06 : Byte), 0x0F, 0x1D, 0xFF], (about (.issue o 7)).program = .issue o 7 :: [] ∧
      ((0x06 ≤ o.toNat ∧ o.toNat ≤ 0x0F) ∨ 0x1D ≤ o.toNat)) ∧
    ∀ o ∈ [(0x05 : Byte), 0x10, 0x1C], ¬ ((0x06 ≤ o.toNat ∧ o.toNat ≤ 0x0F) ∨ 0x1D ≤ o.toNat) := by
  decide +kernel

theorem witness_OpselCodesDecodeAsTabulated :
    ∀ o ∈ [(0x06 : Byte), 0x0F, 0x1D, 0xFF], (0x06 ≤ o.toNat ∧ o.toNat ≤ 0x0F) ∨ 0x1D ≤ o.toNat := by decide

theorem witness_WireFramesDecodeAndEncodeAgree :
    (∀ i ∈ [Instr.wrint 1, .wrint 255, .wrasc 0, .wrasc 1], i.wellFormed = true) ∧
    wireFrame (.wrint 1) = some [0x46, 0x00, 0x00, 0x01, 0xB0] ∧
    (parseFrame [0x46, 0x00, 0x00, 0x01, 0xB0]).toOption = some (.wrint 1) ∧
    (parseFrame [0x46, 0x00, 0x00, 0xFF, 0x2D]).toOption = some (.wrint 255) ∧
    (parseFrame [0x53, 0x06, 0x00, 0x00, 0x81]).toOption = some (.wrasc 0) := by decide +kernel

theorem witness_BuiltFrameParsesBack :
    (Instr.wrint 255).buildsFrame = true ∧ (Instr.wrint 255).wellFormed = true ∧ busy.tx.wf = true := by
  decide +kernel

theorem witness_TableWordOfFrameDecodes :
    (Instr.wrint 255).wellFormed = true ∧ wireFrame (.wrint 255) = some [0x46, 0x00, 0x00, 0xFF, 0x2D] ∧
    wireNumber [0x46, 0x00, 0x00, 0xFF, 0x2D] = 0x460000FF2D := by decide +kernel

theorem witness_SingleByteChangeAltersChecksum : (0x00 : Byte) ≠ 0x01 ∧ crc8 0x01 0x31 = 0x81 := by decide +kernel

/-- The last group inside the loaded bytes, the first outside, and a group one byte short. -/
theorem witness_ChkComparesOneGroup :
    busy.rxLen.toNat ≤ 18 ∧ 3 * (5 : Word).toNat + 3 ≤ busy.rxLen.toNat ∧ 3 * (6 : Word).toNat + 3 > busy.rxLen.toNat ∧
    (loaded (sample.take 17)).rxLen.toNat ≤ 18 ∧ 3 * (5 : Word).toNat + 3 > (loaded (sample.take 17)).rxLen.toNat := by
  decide +kernel

theorem witness_FixedCommandsBuildTheirFrames : busy.tx.wf = true := by decide +kernel

theorem witness_ParameterCommandsBuildTheirFrames : busy.tx.wf = true := by decide +kernel

/-- Each clause at its bounds: 0, 1, 255, 256, 65535 for `WRINT` and 0, 1, 2 for `WRASC`. -/
theorem witness_RangedCommandsBuildOrRefuse :
    busy.tx.wf = true ∧ (∀ p ∈ [(1 : Word), 255], 1 ≤ p.toNat ∧ p.toNat ≤ 255) ∧
    (∀ p ∈ [(0 : Word), 256, 65535], p.toNat = 0 ∨ p.toNat > 255) ∧
    (∀ p ∈ [(0 : Word), 1], p.toNat ≤ 1) ∧ ∀ p ∈ [(2 : Word), 65535], p.toNat > 1 :=
  ⟨by decide +kernel, by simp, by simp, by simp, by simp⟩

theorem witness_FrameAndResponseLengthsGoTogether :
    ∀ i ∈ [Instr.wrasc 1, .srst, .stopm, .rdmeas, .rdrdy], i.buildsFrame = true ∧ i.wellFormed = true := by decide

theorem witness_ParameterRoundTripsThroughFrame :
    busy.tx.wf = true ∧ busy.rx.wf = true ∧ Instr.startc 972 ∈ [Instr.startc 972, Instr.wrfrc 972] := by decide +kernel

/-- A length that is wrong, a checksum that is wrong, and a response that passes. -/
theorem witness_Dec3DecodesOneGroup :
    (loaded [0, 1]).rxLen.toNat ≠ 3 * 1 ∧
    ((loaded [0, 1, 0xB1]).rxLen.toNat = 3 * 1 ∧ ¬ (loaded [0, 1, 0xB1]).rx.read 2 = crc8 0 1) ∧
    (loaded [0, 1, 0xB0]).rxLen.toNat = 3 ∧ (loaded [0, 1, 0xB0]).rx.read 2 =
      crc8 ((loaded [0, 1, 0xB0]).rx.read 0) ((loaded [0, 1, 0xB0]).rx.read 1) := by decide +kernel

theorem witness_Dec6DecodesOneFloatPair :
    (loaded (sample.take 5)).rxLen.toNat ≠ 3 * 2 ∧
    ((loaded (sample.take 5 ++ [0x82])).rxLen.toNat = 3 * 2 ∧
      ¬ (loaded (sample.take 5 ++ [0x82])).rx.read 5 = crc8 0 0) ∧
    (loaded (sample.take 6)).rxLen.toNat = 6 ∧ (loaded (sample.take 6)).rx.read 2 =
      crc8 ((loaded (sample.take 6)).rx.read 0) ((loaded (sample.take 6)).rx.read 1) ∧
    (loaded (sample.take 6)).rx.read 5 =
      crc8 ((loaded (sample.take 6)).rx.read 3) ((loaded (sample.take 6)).rx.read 4) := by decide +kernel

theorem busy_intact : GroupsIntact busy 6 := by unfold GroupsIntact; decide +kernel

theorem corrupted_not_intact : ¬ GroupsIntact (loaded (sample.set 17 0x80)) 6 := by unfold GroupsIntact; decide +kernel

theorem witness_Dec18DecodesMeasurement :
    (loaded (sample.take 17)).rxLen.toNat ≠ 3 * 6 ∧
    ((loaded (sample.set 17 0x80)).rxLen.toNat = 3 * 6 ∧ ¬ GroupsIntact (loaded (sample.set 17 0x80)) 6) ∧
    busy.rxLen.toNat = 18 ∧ GroupsIntact busy 6 :=
  ⟨by decide +kernel, ⟨by decide +kernel, corrupted_not_intact⟩, by decide +kernel, busy_intact⟩

theorem witness_DecodeIsAllOrNothing :
    (Instr.dec18, 6) ∈ decoders ∧ (∃ t, exec .dec18 busy = .next t) ∧ ∃ t, exec .dec3 busy = .next t :=
  ⟨by decide, goes_on (by decide +kernel), goes_on (by decide +kernel)⟩

theorem sample_intact : BytesIntact sample 6 := by unfold BytesIntact; decide +kernel

/-- The first and the last byte of the response. -/
theorem witness_SingleByteCorruptionIsCaught :
    (Instr.dec18, 6) ∈ decoders ∧ busy.rx.wf = true ∧ sample.length = 3 * 6 ∧ BytesIntact sample 6 ∧
    (0 < 3 * 6 ∧ (0x45 : Byte) ≠ sample.getD 0 0) ∧ (17 < 3 * 6 ∧ (0x80 : Byte) ≠ sample.getD 17 0) :=
  ⟨by decide, by decide +kernel, rfl, sample_intact, by decide, by decide⟩

theorem witness_DecoderRejectsZerosAcceptsOnes :
    (Instr.dec3, 1) ∈ decoders ∧ (loaded [0, 0, 0]).rxLen.toNat = 3 * 1 ∧
    (∀ a < 3 * 1, (loaded [0, 0, 0]).rx.read a = 0) ∧ (loaded [0xFF, 0xFF, 0xAC]).rxLen.toNat = 3 * 1 ∧
    ∀ g < 1, (loaded [0xFF, 0xFF, 0xAC]).rx.read (3 * g) = 0xFF ∧
      (loaded [0xFF, 0xFF, 0xAC]).rx.read (3 * g + 1) = 0xFF ∧
      (loaded [0xFF, 0xFF, 0xAC]).rx.read (3 * g + 2) = 0xAC := by decide +kernel

theorem witness_LoadedMeasurementIsDelivered :
    busy.rx.wf = true ∧ sample.length = 18 ∧ BytesIntact sample 6 := ⟨by decide +kernel, rfl, sample_intact⟩

theorem witness_FloatPatternsAreDeliveredUnchanged :
    busy.rx.wf = true ∧ floatPair 0x7FA00001 = [0x7F, 0xA0, 0xDF, 0x00, 0x01, 0xB0] := by decide +kernel

/-- Each clause at the ends of its range: exponents 1 and 254, 0 and 255 with the fraction zero and not. -/
theorem witness_FloatValueFollowsFields :
    (∀ v ∈ [(0x00800000 : Float32Bits), 0x7F7FFFFF],
      1 ≤ (v.extractLsb' 23 8).toNat ∧ (v.extractLsb' 23 8).toNat ≤ 254) ∧
    (∀ v ∈ [(0x80000000 : Float32Bits), 0x007FFFFF], (v.extractLsb' 23 8).toNat = 0) ∧
    ((0x80000000 : Float32Bits).extractLsb' 0 23).toNat = 0 ∧
    (((0xFF800000 : Float32Bits).extractLsb' 23 8).toNat = 255 ∧
      ((0xFF800000 : Float32Bits).extractLsb' 0 23).toNat = 0) ∧
    ((0x7F800001 : Float32Bits).extractLsb' 23 8).toNat = 255 ∧
      ((0x7F800001 : Float32Bits).extractLsb' 0 23).toNat ≠ 0 :=
  ⟨by simp, by simp, by decide, by decide, by decide, by decide⟩

/-- The longest load, by a host that never called `open` and by one that did, and one byte more. -/
theorem witness_LoadRxWritesOnlyReceiveBuffer :
    ((about (.loadRx sample)).program = .loadRx sample :: [] ∧ (about (.loadRx sample)).rx.wf = true ∧
      sample.length ≤ 18 ∧ (about (.loadRx sample)).records.bound = false) ∧
    ((hosted host (.loadRx sample)).program = .loadRx sample :: [] ∧ (hosted host (.loadRx sample)).rx.wf = true ∧
      contractFault (.loadRx sample) (hosted host (.loadRx sample)) = none) ∧
    (about (.loadRx (0 :: sample))).program = .loadRx (0 :: sample) :: [] ∧
    (about (.loadRx (0 :: sample))).rx.wf = true ∧ ¬ (0 :: sample).length ≤ 18 := by decide +kernel

theorem witness_EachItemHasItsWriters : (∃ t, exec .rdfw busy = .next t) ∧ Instr.rdfw ≠ .clr :=
  ⟨goes_on (by decide +kernel), by decide⟩

/-- Two states that agree on the loaded bytes and differ elsewhere. -/
theorem witness_ResultsDependOnInputsOnly :
    busy.tx.wf = true ∧ (loaded sample).tx.wf = true ∧ busy.rxLen = (loaded sample).rxLen ∧
    (∀ a < busy.rxLen.toNat, busy.rx.read a = (loaded sample).rx.read a) ∧ busy ≠ loaded sample ∧
    (∃ t, exec .dec18 busy = .next t) ∧ ∃ t, exec .dec18 (loaded sample) = .next t :=
  ⟨by decide +kernel, by decide +kernel, by decide +kernel, by decide +kernel, by decide +kernel,
    goes_on (by decide +kernel), goes_on (by decide +kernel)⟩

theorem witness_OperationsAreIdempotent : busy.tx.wf = true ∧ ∃ t, exec (.wrint 2) busy = .next t :=
  ⟨by decide +kernel, goes_on (by decide +kernel)⟩

theorem witness_ErrorsComeFromTheirOperations :
    (∃ t, exec (.wrint 0) busy = .next t) ∧ (∃ t, exec .dec3 busy = .next t) ∧ ∃ t, exec (.chk 6) busy = .next t :=
  ⟨goes_on (by decide +kernel), goes_on (by decide +kernel), goes_on (by decide +kernel)⟩

theorem witness_EveryOperationCompletes : LegalValues busy := busy_legal

/-- Both sides of the equivalence occur in a legal state. -/
theorem witness_OnlyHostBreachesStopTheMachine :
    LegalValues busy ∧ (∃ t, step (hosted host (.loadRx sample)) = .next t) ∧
    HostBreach (about (.loadRx (0 :: sample))) (.loadRx (0 :: sample)) ∧
    HostBreach (hosted host (.send true)) (.send true) :=
  ⟨busy_legal, goes_on (by decide +kernel), .loadsTooMuch _ (by decide), .sendsAgain _ (by decide)⟩

theorem witness_HostUsesChangeNothing :
    (about (.read .ready)).program = .read .ready :: [] ∧
    ((State.reset.setProgram [.consume .ready .rdrdy]).program = .consume .ready .rdrdy :: [] ∧
      HostReg.ready.output = some .result ∧ (State.reset.setProgram [.consume .ready .rdrdy]).valid = false) ∧
    ((hosted host (.consume (.f 2) .rdmeas)).program = .consume (.f 2) .rdmeas :: [] ∧
      ∃ t, step (hosted host (.consume (.f 2) .rdmeas)) = .next t) ∧
    ((about (.consume .status .clr)).program = .consume .status .clr :: [] ∧ HostReg.status.output = none) ∧
    ((hosted untaken (.send true)).program = .send true :: [] ∧ ∃ t, step (hosted untaken (.send true)) = .next t) ∧
    (State.reset.setProgram [.send false]).program = .send false :: [] ∧
    (State.reset.setProgram [.send false]).txLen.toNat = 0 :=
  ⟨rfl, ⟨rfl, rfl, by decide +kernel⟩, ⟨rfl, goes_on (by decide +kernel)⟩, ⟨rfl, rfl⟩,
    ⟨rfl, goes_on (by decide +kernel)⟩, rfl, rfl⟩

/-- No result; the group counts 1 and 2 at the views they carry and those they do not; a result of this command and of
another; a failing decode; `CLR`. -/
theorem witness_FloatViewsCarryMeasurementsOnlyWhenDecoded :
    ((State.reset.setProgram [.consume (.f 0) .rdmeas]).program = .consume (.f 0) .rdmeas :: [] ∧
      (State.reset.setProgram [.consume (.f 0) .rdmeas]).valid = false) ∧
    (∀ n ∈ [(1 : BitVec 3), 2], ∀ a ∈ [HostAction.consume (.f 1) .rdmeas],
      (groups n (about a)).program = a :: [] ∧ (groups n (about a)).valid = true ∧
      ¬ ((groups n (about a)).ngrp.toNat = 6 ∨ (groups n (about a)).ngrp.toNat = 2 ∧ (1 : Fin 3) = 0)) ∧
    ((groups 2 (hosted host (.consume (.f 0) .rdmeas))).program = .consume (.f 0) .rdmeas :: [] ∧
      (groups 2 (hosted host (.consume (.f 0) .rdmeas))).valid = true ∧
      (groups 2 (hosted host (.consume (.f 0) .rdmeas))).ngrp.toNat = 2 ∧
      .result ∉ (groups 2 (hosted host (.consume (.f 0) .rdmeas))).records.unchecked) ∧
    ((hosted host (.consume (.f 2) .rdmeas)).valid = true ∧ (hosted host (.consume (.f 2) .rdmeas)).ngrp.toNat = 6) ∧
    (.result ∉ host.unchecked ∧ host.result = some .rdmeas ∧ ¬ (host.result = some .rdmeas ∧ Instr.rdrdy = .rdmeas)) ∧
    (∃ t, exec .dec3 busy = .next t ∧ t.valid = false) ∧ ∃ t, exec .clr busy = .next t :=
  ⟨by decide +kernel, by decide +kernel, by decide +kernel, by decide +kernel, by decide +kernel,
    ⟨_, rfl, by decide +kernel⟩, goes_on (by decide +kernel)⟩

/-- A frame to be taken and one that was taken; an encode operation that builds a frame, one that refuses, and `CLR`. -/
theorem witness_FrameIsTakenBeforeItIsOverwritten :
    (∀ o ∈ [(0x1A : Byte), 0x13, 0x00], (hosted host (.issue o 0)).program = .issue o 0 :: [] ∧
      (hosted host (.issue o 0)).records.bound = true ∧ (hosted host (.issue o 0)).records.frame ≠ .untaken) ∧
    (decodeIssue 0x1A 0 = .ok .rdrdy ∧ Instr.rdrdy.buildsFrame = true) ∧
    (decodeIssue 0x13 0 = .ok (.wrint 0) ∧ (Instr.wrint 0).buildsFrame = true) ∧ decodeIssue 0x00 0 = .ok .clr ∧
    (hosted { untaken with transport := .closed } (.issue 0x1A 0)).records.bound = true ∧
    (hosted { untaken with transport := .closed } (.issue 0x1A 0)).records.frame = .untaken :=
  ⟨by decide +kernel, ⟨rfl, rfl⟩, ⟨rfl, rfl⟩, rfl, rfl, rfl⟩

/-- Each clause: the reply, a float pair of it, 6 bytes of the host's own, other bytes; the right length, another,
nothing to decode, a failed read, a failed write of a command with this response and with another. -/
theorem witness_OneReplyIsLoadedAndDecoded :
    (∀ a ∈ [HostAction.loadRx sample, .loadRx (sample.drop 12), .loadRx (List.replicate 6 0), .loadRx (sample.take 3),
      .issue 0x05 0, .issue 0x03 0],
      (hosted host a).program = a :: [] ∧ (hosted host a).records.bound = true) ∧
    (sample.length ≤ 18 ∧ host.reply.bytes = some sample ∧ host.reply = .received (some .rdmeas) sample) ∧
    ((sample.drop 12).length = 6 ∧ sample.drop 12 ∈ floatPairsOf sample) ∧
    ((sample.take 3).length ≤ 18 ∧ host.reply.bytes ≠ some (sample.take 3) ∧ (sample.take 3).length ≠ 6) ∧
    ((Instr.dec18, 6) ∈ decoders ∧ decodeIssue 0x05 0 = .ok .dec18 ∧ host.decodable = true ∧
      host.frame ≠ .readFailed ∧ host.frame ≠ .writeFailed ∧
      (hosted host (.issue 0x05 0)).rxLen.toNat = 3 * 6) ∧
    ((Instr.dec3, 1) ∈ decoders ∧ decodeIssue 0x03 0 = .ok .dec3 ∧
      (hosted host (.issue 0x03 0)).rxLen.toNat ≠ 3 * 1) ∧
    ({ host with decodable := false } : Records).decodable = false ∧ readFailed.frame = .readFailed ∧
    (writeFailed.frame = .writeFailed ∧ (hosted writeFailed (.issue 0x05 0)).expLen.toNat = 3 * 6 ∧
      (hosted writeFailed (.issue 0x03 0)).expLen.toNat ≠ 3 * 1) :=
  ⟨by decide +kernel, ⟨by decide, rfl, rfl⟩, by decide, by decide,
    ⟨by decide, rfl, rfl, by decide, by decide, by decide +kernel⟩, ⟨by decide, rfl, by decide +kernel⟩, rfl, rfl,
    by decide +kernel⟩

theorem ready_intact : BytesIntact [0x00, 0x01, 0xB0] 1 := by unfold BytesIntact; decide +kernel

theorem pair_intact : BytesIntact (sample.take 6) 2 := by unfold BytesIntact; decide +kernel

theorem corrupted_bytes_not_intact : ¬ BytesIntact (sample.set 17 0x80) 6 := by unfold BytesIntact; decide +kernel

/-- Never `open`ed, with corrupted bytes; a host that called `open`, whose last write failed, with the reply, and the command
that it answers built in between, and `CRC8`. -/
theorem witness_NextDecodeReadsLoadedBytes :
    ((Instr.dec18, 6) ∈ decoders ∧ decodeLength .rdmeas = none ∧ Instr.rdmeas ≠ .clr ∧ sample.length = 3 * 6 ∧
      BytesIntact sample 6 ∧ (sample.set 17 0x80).length = 3 * 6 ∧ ¬ BytesIntact (sample.set 17 0x80) 6) ∧
    ((about .reset).rx.wf = true ∧ (about .reset).records.bound = false) ∧
    ((hosted writeFailed .reset).rx.wf = true ∧ (hosted writeFailed .reset).records.bound = true ∧
      (hosted writeFailed .reset).records.reply.bytes = some sample ∧ Instr.rdmeas.buildsFrame = true ∧
      (hosted writeFailed .reset).records.frame ≠ .untaken ∧ (Instr.crc8 7).buildsFrame = false ∧
      (hosted writeFailed .reset).records.frame ≠ .readFailed) ∧
    ((hosted writeFailed .reset).setProgram ([.loadRx sample, .issue (encode .rdmeas).1 (encode .rdmeas).2,
        .issue (encode .dec18).1 (encode .dec18).2] ++ [])).program =
      [.loadRx sample, .issue (encode .rdmeas).1 (encode .rdmeas).2, .issue (encode .dec18).1 (encode .dec18).2] ++ [] :=
  ⟨⟨by decide, rfl, by decide, rfl, sample_intact, rfl, corrupted_bytes_not_intact⟩, by decide +kernel,
    by decide +kernel, rfl⟩

/-- A write that fails, a read that fails, and what may follow either. -/
theorem witness_FailedExchangeIsNotDecoded :
    ((hosted untaken (.send false)).program = .send false :: [] ∧ (hosted untaken (.send false)).txLen.toNat ≠ 0 ∧
      (hosted untaken (.send false)).records.connected = true ∧ .frame ∉ untaken.unchecked ∧
      (hosted untaken (.send false)).records.frame = .untaken) ∧
    ((hosted sent (.receive none)).program = .receive none :: [] ∧ (hosted sent (.receive none)).records.frame = .sent ∧
      (hosted sent (.receive none)).expLen.toNat ≠ 0) ∧
    (∀ a ∈ [HostAction.issue 0x05 0, .receive (some sample), .issue 0x1A 0, .loadRx sample],
      ∀ c ∈ [writeFailed, readFailed], (hosted c a).program = a :: [] ∧ (hosted c a).records.connected = true ∧
        (hosted c a).records.bound = true) ∧
    (writeFailed.frame = .writeFailed ∧ (hosted writeFailed (.issue 0x05 0)).expLen.toNat = 3 * 6) ∧
    readFailed.frame = .readFailed ∧ (∃ t, step (hosted writeFailed (.loadRx sample)) = .next t) ∧
    ((Instr.dec18, 6) ∈ decoders ∧ decodeIssue 0x05 0 = .ok .dec18) ∧ decodeIssue 0x1A 0 = .ok .rdrdy ∧
    Instr.rdrdy.buildsFrame = true :=
  ⟨by decide +kernel, by decide +kernel, by decide +kernel, by decide +kernel, rfl, goes_on (by decide +kernel),
    ⟨by decide, rfl⟩, rfl, rfl⟩

/-- The reply loaded, a failed write and a failed read of `RDRDY`, `STARTC` after it; corrupted bytes on the host's own
account. -/
theorem witness_LoadedBytesOutliveFailedExchange :
    ((Instr.dec18, 6) ∈ decoders ∧ responseLength .rdrdy ≠ 0 ∧ (Instr.startc 972).buildsFrame = true ∧
      sample.length = 3 * 6 ∧ BytesIntact sample 6) ∧
    ((Instr.dec6, 2) ∈ decoders ∧ (List.replicate 6 (0 : Byte)).length = 3 * 2 ∧
      ¬ BytesIntact (List.replicate 6 (0 : Byte)) 2) ∧
    ((hosted host .reset).tx.wf = true ∧ (hosted host .reset).rx.wf = true ∧
      (hosted host .reset).records.connected = true ∧ (hosted host .reset).records.reply.bytes = some sample ∧
      (hosted host .reset).records.frame ≠ .untaken) ∧
    ∀ failure ∈ [[HostAction.send false], [.send true, .receive none]],
      ((hosted host .reset).setProgram (.loadRx sample :: .issue (encode .rdrdy).1 (encode .rdrdy).2 ::
        (failure ++ [.issue (encode (.startc 972)).1 (encode (.startc 972)).2,
          .issue (encode .dec18).1 (encode .dec18).2]))).program =
      .loadRx sample :: .issue (encode .rdrdy).1 (encode .rdrdy).2 ::
        (failure ++ [.issue (encode (.startc 972)).1 (encode (.startc 972)).2,
          .issue (encode .dec18).1 (encode .dec18).2]) :=
  ⟨⟨by decide, by decide, rfl, rfl, sample_intact⟩,
    ⟨by decide, rfl, by unfold BytesIntact; decide +kernel⟩, by decide +kernel, fun _ _ => rfl⟩

theorem witness_ResultIsUsedForItsCommandOnly :
    ((about (.consume (.w 5) .rdmeas)).program = .consume (.w 5) .rdmeas :: [] ∧
      (about (.consume (.w 5) .rdmeas)).valid = true ∧ .result ∉ (about (.consume (.w 5) .rdmeas)).records.unchecked ∧
      (about (.consume (.w 5) .rdmeas)).records.result = some .rdmeas ∧ alone.result ≠ some .rdrdy) ∧
    ((hosted host (.consume .ready .rdrdy)).program = .consume .ready .rdrdy :: [] ∧
      (hosted host (.consume .ready .rdrdy)).ngrp.toNat ≠ 1 ∧
      (groups 1 (hosted host (.consume .ready .rdrdy))).valid = true ∧
      (groups 1 (hosted host (.consume .ready .rdrdy))).ngrp.toNat = 1) ∧
    ({ host with result := some .rdrdy } : Records).result = some .rdrdy ∧
    ¬ (host.result = some .rdrdy ∧ Instr.rdrdy = .rdrdy) := by decide +kernel

/-- The command whose answer stands, and another one. -/
theorem witness_CommandBuiltAnewHasNoAnswer :
    (hosted host (.issue 0x1C 0)).program = .issue 0x1C 0 :: [] ∧ decodeIssue 0x1C 0 = .ok .rdmeas ∧
    Instr.rdmeas.buildsFrame = true ∧ (∃ t, step (hosted host (.issue 0x1C 0)) = .next t) ∧
    (hosted host (.issue 0x1C 0)).records.result = some .rdmeas ∧ decodeIssue 0x1A 0 = .ok .rdrdy ∧
    (∃ t, step (hosted host (.issue 0x1A 0)) = .next t) ∧ Instr.rdmeas ≠ .rdrdy :=
  ⟨rfl, rfl, rfl, goes_on (by decide +kernel), rfl, rfl, goes_on (by decide +kernel), by decide⟩

theorem witness_ErrorsAreCheckedBeforeUse :
    ((hosted { host with unchecked := [.frame] } (.send true)).program = .send true :: [] ∧
      (hosted { host with unchecked := [.frame] } (.send true)).records.connected = true ∧
      (hosted { host with unchecked := [.frame] } (.send true)).txLen.toNat ≠ 0 ∧
      .frame ∈ (hosted { host with unchecked := [.frame] } (.send true)).records.unchecked) ∧
    ((hosted { host with unchecked := [.result] } (.consume (.w 0) .rdmeas)).program = .consume (.w 0) .rdmeas :: [] ∧
      (HostReg.w 0).output = some .result ∧
      (HostReg.w 0).emptyFault (hosted { host with unchecked := [.result] } (.consume (.w 0) .rdmeas)) = none) ∧
    ((hosted host .reset).setProgram [.issue 0x05 0, .read .status]).program = .issue 0x05 0 :: .read .status :: [] ∧
    decodeIssue 0x05 0 = .ok .dec18 ∧ canRaise .dec18 = true ∧ outputOf .dec18 = some .result ∧
    ∃ t, step ((hosted host .reset).setProgram [.issue 0x05 0, .read .status]) = .next t :=
  ⟨by decide +kernel, by decide +kernel, rfl, rfl, rfl, rfl, goes_on (by decide +kernel)⟩

theorem witness_FrameIsSentOnce :
    ((about (.send true)).program = .send true :: [] ∧ (about (.send true)).txLen.toNat ≠ 0 ∧
      (about (.send true)).records.connected = false) ∧
    ((hosted host (.send true)).program = .send true :: [] ∧ (hosted host (.send true)).txLen.toNat ≠ 0 ∧
      (hosted host (.send true)).records.connected = true ∧ .frame ∉ (hosted host (.send true)).records.unchecked ∧
      (hosted host (.send true)).records.frame ≠ .untaken) ∧
    (hosted untaken (.send false)).records.frame = .untaken := by decide +kernel

/-- No session; a response due and none due; 18 bytes, 17 and 19. -/
theorem witness_TransportReadAnswersSentCommand :
    ((about (.receive none)).program = .receive none :: [] ∧ (about (.receive none)).records.connected = false) ∧
    (∀ bs ∈ [sample, sample.take 17, 0 :: sample],
      (hosted sent (.receive (some bs))).program = .receive (some bs) :: [] ∧
      (hosted sent (.receive (some bs))).records.connected = true ∧
      (hosted sent (.receive (some bs))).records.frame = .sent) ∧
    (sample.length = 18 ∧ (hosted sent (.receive (some sample))).expLen.toNat = 18 ∧
      (sample.take 17).length ≠ 18 ∧ (0 :: sample).length ≠ 18) ∧
    (parseFrame (hosted sent (.receive (some sample))).frame).toOption = some .rdmeas ∧
    (hosted host (.receive none)).records.frame ≠ .sent := by decide +kernel

theorem witness_OneSessionAtATime :
    (∀ b, (about (.connect b)).program = .connect b :: [] ∧ (about (.connect b)).records.connected = false ∧
      (hosted host (.connect b)).program = .connect b :: [] ∧ (hosted host (.connect b)).records.connected = true) ∧
    (about .disconnect).program = .disconnect :: [] ∧ (about .disconnect).records.connected = false ∧
    (hosted host .disconnect).program = .disconnect :: [] ∧ (hosted host .disconnect).records.connected = true := by
  decide +kernel

/-- A response due at the close, and none. -/
theorem witness_DutiesOutliveTheSession :
    ∀ c ∈ [sent, untaken], (hosted c .disconnect).records.connected = true ∧
      (hosted c .disconnect).program = .disconnect :: [] ∧
      ((hosted c .reset).setProgram [.disconnect, .connect true]).records.connected = true ∧
      ((hosted c .reset).setProgram [.disconnect, .connect true]).program = .disconnect :: .connect true :: [] := by
  decide +kernel

/-- Every decode length: a word, one float pair of a measurement, the whole of it. -/
theorem witness_ExchangeByContractDeliversReply :
    ((Instr.dec3, 1) ∈ decoders ∧ responseLength .rdrdy = 3 ∧ [(0x00 : Byte), 0x01, 0xB0].length = 3 * 1 ∧
      BytesIntact [0x00, 0x01, 0xB0] 1) ∧
    ((Instr.dec6, 2) ∈ decoders ∧ sample.take 6 ∈ floatPairsOf sample ∧ (sample.take 6).length = 3 * 2 ∧
      BytesIntact (sample.take 6) 2) ∧
    ((Instr.dec18, 6) ∈ decoders ∧ responseLength .rdmeas = 18 ∧ sample.length = 18 ∧ BytesIntact sample 6) ∧
    (hosted host .reset).tx.wf = true ∧ (hosted host .reset).rx.wf = true ∧
    (hosted host .reset).records.connected = true ∧ (hosted host .reset).records.frame ≠ .untaken ∧
    ((hosted host .reset).setProgram ([.issue (encode .rdmeas).1 (encode .rdmeas).2, .send true, .receive (some sample),
      .loadRx sample, .issue (encode .dec18).1 (encode .dec18).2, .read .status, .consume (.w 0) .rdmeas] ++ [])).program =
      [.issue (encode .rdmeas).1 (encode .rdmeas).2, .send true, .receive (some sample), .loadRx sample,
        .issue (encode .dec18).1 (encode .dec18).2, .read .status, .consume (.w 0) .rdmeas] ++ [] :=
  ⟨⟨by decide, rfl, rfl, ready_intact⟩, ⟨by decide, by decide, rfl, pair_intact⟩,
    ⟨by decide, rfl, rfl, sample_intact⟩, by decide +kernel, by decide +kernel, rfl, by decide, rfl⟩

theorem witness_PlacedWordRunsItsInstruction :
    decodeTableWord 8 0x05 = some .dec18 ∧ decodeTableWord 16 0x0300 = some .rdmeas ∧
    decodeTableWord 40 0x001003CC96 = some (.startc 972) := by decide +kernel

theorem witness_EveryStepKeepsLegalValues : LegalValues busy ∧ ∃ t, step busy = .next t :=
  ⟨busy_legal, goes_on (by decide +kernel)⟩

theorem witness_EveryStepKeepsInvariant :
    BlockInv (hosted host (.issue 0x05 0)) ∧ ∃ t, step (hosted host (.issue 0x05 0)) = .next t :=
  ⟨hosted_inv _, goes_on (by decide +kernel)⟩

end Sys2Proof.Tests
end

section
/-! PROOFS. The action list and the host's actions beside `ISSUE` (rules R9, R20, R35, R37): what one step does with an
issued operation, a read, a use and a send. First, for all later proofs, what an operation leaves of the host's fields. -/

namespace Sys2Proof.Machine

variable (s t : State) (i : Instr)

/-! ## The encode operations -/

/-- The operation completes in every state and stores five bytes in `TX`, with `TXLEN`, `EXPLEN` and `STATUS.ERR`, the
same in every state: the common form of the three helpers of rule R75. -/
def StoresFrame (op : State → Host.Outcome State Fault Refusal) : Prop :=
  ∃ (bs : List Byte) (n : BitVec 3) (k : BitVec 5) (e : ErrorCode), bs.length = 5 ∧
    ∀ s, op s = .next ((s.setFrame (s.tx.writeBytes 0 bs) n k).setErr e)

theorem emit2_storesFrame (reg : Word) (n : BitVec 5) : StoresFrame (emit2 reg n) :=
  ⟨_, _, _, _, rfl, emit2_eq_next reg n⟩

theorem emit5_storesFrame (reg p : Word) : StoresFrame (emit5 reg p) :=
  ⟨_, _, _, _, rfl, emit5_eq_next reg p⟩

theorem refuse_storesFrame : StoresFrame refuse :=
  ⟨_, _, _, _, rfl, refuse_eq_next⟩

/-- `WRINT`, refused or not (rule R79). -/
theorem execWrint_storesFrame (sec : Word) : StoresFrame (execWrint sec) := by
  by_cases h : sec.toNat = 0 ∨ sec.toNat > 255
  · rw [show execWrint sec = refuse from funext fun _ => if_pos h]
    exact refuse_storesFrame
  · rw [show execWrint sec = emit5 0x4600 (lowByteParameter sec) from funext fun _ => if_neg h]
    exact emit5_storesFrame _ _

/-- `WRASC`, refused or not (rule R81). -/
theorem execWrasc_storesFrame (en : Word) : StoresFrame (execWrasc en) := by
  by_cases h : en.toNat > 1
  · rw [show execWrasc en = refuse from funext fun _ => if_pos h]
    exact refuse_storesFrame
  · rw [show execWrasc en = emit5 0x5306 en from funext fun _ => if_neg h]
    exact emit5_storesFrame _ _

/-- Every encode operation stores a frame, or the five zeros of a refusal (rules R76 to R88). -/
theorem exec_storesFrame (h : i.buildsFrame = true) : StoresFrame (exec i) := by
  cases i with
  | clr | crc8 | chk | dec3 | dec6 | dec18 => exact Bool.noConfusion h
  | rdfw | srst | rdint | rdasc | rdfrc | rdtoff | rdrdy | stopm | rdmeas => exact emit2_storesFrame _ _
  | wrfrc | startc => exact emit5_storesFrame _ _
  | wrint sec => exact execWrint_storesFrame sec
  | wrasc en => exact execWrasc_storesFrame en

/-! ## `CHK` and the decode operations -/

/-- What `CHK` can do when it completes, in any state (rule R68). -/
theorem execChk_inv (arg : Word) (h : execChk arg s = .next t) : ∃ b e, t = (s.setMatched b).setErr e := by
  unfold execChk at h
  split at h
  · exact ⟨_, _, (Host.Outcome.next.inj h).symm⟩
  · cases hg : readGroup (groupIndex arg) s with
    | some g => rw [hg] at h; exact ⟨_, _, (Host.Outcome.next.inj h).symm⟩
    | none => rw [hg] at h; cases h

/-- What a decode can do when it completes, in any state and for any length: it fails as a whole or commits as a whole
(rule R100, rule R104). -/
theorem decodeResponse_inv (n : Nat) (h : decodeResponse n s = .next t) :
    (∃ e, t = decodeFail e s) ∨ t = decodeCommit (n / Config.groupSize) s := by
  unfold decodeResponse at h
  split at h
  · exact .inl ⟨_, (Host.Outcome.next.inj h).symm⟩
  · cases hg : scanGroups s (List.range (n / Config.groupSize)) with
    | some intact =>
      rw [hg] at h
      cases intact with
      | true => exact .inr (Host.Outcome.next.inj h).symm
      | false => exact .inl ⟨_, (Host.Outcome.next.inj h).symm⟩
    | none => rw [hg] at h; cases h

/-! ## The host's fields are not the block's -/

theorem decodeResponse_keeps_host (n : Nat) (h : decodeResponse n s = .next t) :
    t.program = s.program ∧ t.records = s.records := by
  obtain ⟨e, rfl⟩ | rfl := decodeResponse_inv s t n h
  · exact ⟨rfl, rfl⟩
  · exact ⟨rfl, rfl⟩

/-- No operation reads or writes the host's list or its records (assumptions 3 and 8). -/
theorem exec_keeps_host (h : exec i s = .next t) : t.program = s.program ∧ t.records = s.records := by
  by_cases hb : i.buildsFrame = true
  · obtain ⟨bs, n, k, e, -, hop⟩ := exec_storesFrame i hb
    obtain rfl := Host.Outcome.next.inj ((hop s).symm.trans h)
    exact ⟨rfl, rfl⟩
  · cases i with
    | clr | crc8 => obtain rfl := Host.Outcome.next.inj h; exact ⟨rfl, rfl⟩
    | chk g => obtain ⟨b, e, rfl⟩ := execChk_inv s t g h; exact ⟨rfl, rfl⟩
    | dec3 | dec6 | dec18 => exact decodeResponse_keeps_host s t _ h
    | _ => exact absurd rfl hb

theorem exec_program (h : exec i s = .next t) : t.program = s.program := (exec_keeps_host s t i h).1

theorem exec_records (h : exec i s = .next t) : t.records = s.records := (exec_keeps_host s t i h).2

/-! ## Issuing an operation -/

variable (rest : List HostAction)

theorem performAction_issue (opsel : Byte) (arg : Word) (hd : decodeIssue opsel arg = .ok i) :
    performAction (.issue opsel arg) s = exec i s := by
  simp only [performAction, hd]

theorem Records.after_issue (c : Records) (u : State) (opsel : Byte) (arg : Word) (hd : decodeIssue opsel arg = .ok i) :
    c.after (.issue opsel arg) u = c.afterIssue i u := by
  simp only [Records.after, hd]

/-- An issue breaks no duty when the host never called `open`, or when the operation breaks none of rule R153 (c), (d). -/
theorem contractFault_issue_eq_none (opsel : Byte) (arg : Word) (hd : decodeIssue opsel arg = .ok i)
    (h : s.records.bound = false ∨ s.records.issueFault i s = none) : contractFault (.issue opsel arg) s = none := by
  cases hb : s.records.bound with
  | false => exact contractFault_issue_of_not_bound s opsel arg hb
  | true =>
    rw [contractFault_issue s i opsel arg hb hd]
    exact h.resolve_left (by simp [hb])

/-- The records follow an issued operation from what they were before it, since `exec` keeps them. -/
theorem recorded_issue (u : State) (opsel : Byte) (arg : Word) (hd : decodeIssue opsel arg = .ok i)
    (hu : exec i s = .next u) : u.recorded (.issue opsel arg) = u.setRecords (s.records.afterIssue i u) := by
  rw [State.recorded, Records.after_issue i _ u opsel arg hd, exec_records s u i hu]

/-! ## Reads, uses and sends -/

/-- The actions by which the host only looks at the block or gives its frame away (rule R35, rule R41). -/
def HostAction.touchesNothing : HostAction → Bool
  | .read _ | .consume _ _ | .send _ => true
  | .issue _ _ | .loadRx _ | .reset | .connect _ | .receive _ | .disconnect => false

/-- Performing one of them changes nothing at all (rule R35). -/
theorem performAction_of_touchesNothing (a : HostAction) (h : a.touchesNothing = true) : performAction a s = .next s := by
  cases a with
  | read | consume | send => rfl
  | issue | loadRx | reset | connect | receive | disconnect => exact Bool.noConfusion h

/-- A step by one of them, when it breaks no duty: the action is off the list, and the host's records follow. -/
theorem step_of_touchesNothing (a : HostAction) (h : a.touchesNothing = true) (hp : s.program = a :: rest)
    (hf : contractFault a s = none) : step s = .next ((s.setProgram rest).recorded a) :=
  step_eq_next s rest a _ hp hf (performAction_of_touchesNothing _ a h)

/-- A step by one of them that goes on leaves every item of Table ST-1 as it was. -/
theorem sameBlock_of_touchesNothing (a : HostAction) (h : a.touchesNothing = true) (hp : s.program = a :: rest)
    (ht : step s = .next t) : sameBlock t s ∧ t.program = rest := by
  cases hf : contractFault a s with
  | some f => rw [step_of_fault s rest a f hp hf] at ht; cases ht
  | none =>
    obtain rfl := Host.Outcome.next.inj ((step_of_touchesNothing s rest a h hp hf).symm.trans ht)
    exact ⟨rfl, rfl⟩

/-- A register that is no output can be used at any time (rule R158). -/
theorem consumeFault_of_no_output (r : HostReg) (q : Instr) (h : r.output = none) : consumeFault r q s = none := by
  simp only [consumeFault, h]

/-- No result register is used with `VALID = 0` (rule R105, rule R153 (e)). -/
theorem consumeFault_of_not_valid (r : HostReg) (q : Instr) (h : r.output = some .result) (hv : s.valid = false) :
    consumeFault r q s = some .resultNotValid := by
  simp only [consumeFault, HostReg.emptyFault, h, hv, if_true]

/-- No frame is sent with `TXLEN = 0`, session or not (rule R153 (f), U10). -/
theorem sendFault_of_empty (h : s.txLen.toNat = 0) : sendFault s = some .emptyFrame := if_pos h

end Sys2Proof.Machine

namespace Sys2Proof.Claims

open Sys2Proof.Machine

/-- Settles O4: a breach stops the step before the action, and otherwise `exec` is performed, which leaves the records for
`keepRecords` to follow. -/
theorem stepRunsIssuedOperation : Obligations.StepRunsIssuedOperation := by
  intro s opsel arg rest i hp hd
  refine ⟨fun hb f hf => ?breach, fun hok => ?runs⟩
  case breach =>
    exact step_of_fault s rest _ f hp ((contractFault_issue s i opsel arg hb hd).trans hf)
  case runs =>
    rw [step_of_no_fault s rest _ hp (contractFault_issue_eq_none s i opsel arg hd hok),
      performAction_issue _ i opsel arg hd]
    cases hu : exec i (s.setProgram rest) with
    | next u => exact congrArg Host.Outcome.next (recorded_issue (s.setProgram rest) i u opsel arg hd hu)
    | fault f => rfl
    | refused x => rfl

/-- Settles O39: reads, uses and sends are performed without touching the block, and the two empty uses are told as faults
before that. -/
theorem hostUsesChangeNothing : Obligations.HostUsesChangeNothing := by
  intro s rest
  refine ⟨fun r hp => ?read, fun r q t hp ht => ?use, fun r q hp ho => ?useOfNoOutput, fun r q hp ho hv => ?useOfNoResult,
    fun b t hp ht => ?send, fun b hp hn => ?sendOfNoFrame⟩
  case read => exact step_of_touchesNothing s rest (.read r) rfl hp rfl
  case use => exact sameBlock_of_touchesNothing s t rest (.consume r q) rfl hp ht
  case useOfNoOutput =>
    exact step_of_touchesNothing s rest (.consume r q) rfl hp (consumeFault_of_no_output s r q ho)
  case useOfNoResult => exact step_of_fault s rest _ _ hp (consumeFault_of_not_valid s r q ho hv)
  case send => exact sameBlock_of_touchesNothing s t rest (.send b) rfl hp ht
  case sendOfNoFrame => exact step_of_fault s rest _ _ hp (sendFault_of_empty s hn)

end Sys2Proof.Claims
end

section
/-! PROOFS. The items of the state (rules R10 to R23): what each class of operations leaves, which items it writes, what its
results depend on, and that issuing it again changes nothing. -/

namespace Sys2Proof.Machine

open Sys2Proof.Claims

variable (s t : State) (i : Instr)

/-! ## Two states that differ in `STATUS` at most -/

/-- A state is its items, with `STATUS` by its five fields. -/
theorem State.eq_of_flags {s t : State} (hrest : { s with status := 0 } = { t with status := 0 })
    (hv : s.valid = t.valid) (hm : s.matched = t.matched) (he : s.err = t.err) (hn : s.ngrp = t.ngrp)
    (hr : s.reservedBit = t.reservedBit) : s = t := by
  have hst : s.status = t.status := status_ext hv hm he hn hr
  cases s
  cases t
  simp_all

/-! ## The classes of operations (Table E-4) -/

theorem mem_decoders_iff (d : Instr × Nat) : d ∈ decoders ↔ d = (.dec3, 1) ∨ d = (.dec6, 2) ∨ d = (.dec18, 6) := by
  simp [decoders]

/-- Every operation is `CLR`, `CRC8`, `CHK`, a decode or an encode operation. -/
theorem instr_classes : i = .clr ∨ (∃ arg, i = .crc8 arg) ∨ (∃ g, i = .chk g) ∨ (∃ d ∈ decoders, i = d.1) ∨
    i.buildsFrame = true := by
  cases i with
  | clr => exact .inl rfl
  | crc8 arg => exact .inr (.inl ⟨arg, rfl⟩)
  | chk g => exact .inr (.inr (.inl ⟨g, rfl⟩))
  | dec3 => exact .inr (.inr (.inr (.inl ⟨(.dec3, 1), by simp [decoders], rfl⟩)))
  | dec6 => exact .inr (.inr (.inr (.inl ⟨(.dec6, 2), by simp [decoders], rfl⟩)))
  | dec18 => exact .inr (.inr (.inr (.inl ⟨(.dec18, 6), by simp [decoders], rfl⟩)))
  | _ => exact .inr (.inr (.inr (.inr rfl)))

/-! ## `CHK` (rule R68) -/

/-- The group does not lie inside the loaded bytes. -/
theorem execChk_of_short (g : Word) (h : s.rxLen.toNat < 3 * g.toNat + 3) :
    execChk g s = .next ((s.setMatched false).setErr .lengthError) := if_pos h

/-- The group lies inside the loaded bytes, and inside the 18 that exist. -/
theorem execChk_of_inside (g : Word) (h : 3 * g.toNat + 3 ≤ s.rxLen.toNat) (h18 : 3 * g.toNat + 3 ≤ 18) :
    execChk g s = .next ((s.setMatched (rxGroup s g.toNat).intact).setErr .none) := by
  rw [execChk, groupIndex, if_neg (by omega), readGroup_eq_some h h18]
  rfl

/-- A group that is read lies inside the 18 bytes that exist. -/
theorem le_of_readGroup_eq_some {g : Nat} {grp : Group} (h : readGroup g s = some grp) : 3 * g + 3 ≤ 18 := by
  cases hm : memReadRx (3 * g) 3 s with
  | some bs => exact (memReadRx_eq_some.mp hm).2.1
  | none => rw [readGroup, show Config.groupSize = 3 from rfl, hm] at h; cases h

/-- Everything `CHK` can do when it completes, in any state. -/
theorem execChk_cases (g : Word) (h : execChk g s = .next t) :
    s.rxLen.toNat < 3 * g.toNat + 3 ∧ t = (s.setMatched false).setErr .lengthError ∨
    3 * g.toNat + 3 ≤ s.rxLen.toNat ∧ 3 * g.toNat + 3 ≤ 18 ∧
      t = (s.setMatched (rxGroup s g.toNat).intact).setErr .none := by
  by_cases hlen : s.rxLen.toNat < 3 * g.toNat + 3
  · exact .inl ⟨hlen, Host.Outcome.next.inj (h.symm.trans (execChk_of_short s g hlen))⟩
  · have h18 : 3 * g.toNat + 3 ≤ 18 := by
      rw [execChk, groupIndex, if_neg hlen] at h
      cases hg : readGroup g.toNat s with
      | some grp => exact le_of_readGroup_eq_some s hg
      | none => rw [hg] at h; cases h
    exact .inr ⟨by omega, h18, Host.Outcome.next.inj (h.symm.trans (execChk_of_inside s g (by omega) h18))⟩

/-! ## The decode operations (rule R100) -/

/-- What the decode of `k` groups leaves. -/
def decodedState (k : Nat) (s : State) : State :=
  if s.rxLen.toNat ≠ 3 * k then decodeFail .lengthError s
  else if groupsIntact s k = true then decodeCommit k s else decodeFail .checksumError s

theorem decodedState_of_length (k : Nat) (h : s.rxLen.toNat ≠ 3 * k) :
    decodedState k s = decodeFail .lengthError s := if_pos h

theorem decodedState_of_intact (k : Nat) (h : s.rxLen.toNat = 3 * k) (hg : groupsIntact s k = true) :
    decodedState k s = decodeCommit k s := (if_neg (not_not_intro h)).trans (if_pos hg)

theorem decodedState_of_corrupted (k : Nat) (h : s.rxLen.toNat = 3 * k) (hg : ¬ groupsIntact s k = true) :
    decodedState k s = decodeFail .checksumError s := (if_neg (not_not_intro h)).trans (if_neg hg)

/-- A decode operation completes in every state. -/
theorem exec_decoder (d : Instr × Nat) (hd : d ∈ decoders) : exec d.1 s = .next (decodedState d.2 s) := by
  obtain rfl | rfl | rfl := (mem_decoders_iff d).mp hd
  · exact execDec3_eq_next s
  · exact execDec6_eq_next s
  · exact execDec18_eq_next s

/-- A decode operation decodes one, two or six groups. -/
theorem decoders_groups (d : Instr × Nat) (hd : d ∈ decoders) : d.2 = 1 ∨ d.2 = 2 ∨ d.2 = 6 := by
  obtain rfl | rfl | rfl := (mem_decoders_iff d).mp hd <;> decide

@[simp] theorem decodeFail_w (e : ErrorCode) : (decodeFail e s).w = Vector.replicate 6 0 := rfl
@[simp] theorem decodeFail_valid (e : ErrorCode) : (decodeFail e s).valid = false := by simp [decodeFail]
@[simp] theorem decodeFail_ngrp (e : ErrorCode) : (decodeFail e s).ngrp = 0 := by simp [decodeFail]
@[simp] theorem decodeFail_err (e : ErrorCode) : (decodeFail e s).err = e.code := by simp [decodeFail]
@[simp] theorem decodeFail_matched (e : ErrorCode) : (decodeFail e s).matched = s.matched := by simp [decodeFail]
@[simp] theorem decodeFail_reservedBit (e : ErrorCode) : (decodeFail e s).reservedBit = s.reservedBit := by
  simp [decodeFail]

@[simp] theorem decodeCommit_w (k : Nat) : (decodeCommit k s).w = decodedWords k s := rfl
@[simp] theorem decodeCommit_valid (k : Nat) : (decodeCommit k s).valid = true := by simp [decodeCommit]
@[simp] theorem decodeCommit_ngrp (k : Nat) : (decodeCommit k s).ngrp = BitVec.ofNat 3 k := by simp [decodeCommit]
@[simp] theorem decodeCommit_err (k : Nat) : (decodeCommit k s).err = ErrorCode.none.code := by simp [decodeCommit]
@[simp] theorem decodeCommit_matched (k : Nat) : (decodeCommit k s).matched = s.matched := by simp [decodeCommit]
@[simp] theorem decodeCommit_reservedBit (k : Nat) : (decodeCommit k s).reservedBit = s.reservedBit := by
  simp [decodeCommit]

/-! ## What each class leaves unchanged -/

theorem exec_crc8_keeps (arg : Word) (h : exec (.crc8 arg) s = .next t) :
    KeepsBuffersAndResult s t ∧ t.matched = s.matched := by
  obtain rfl := Host.Outcome.next.inj h
  exact ⟨⟨rfl, rfl, rfl, rfl, fun _ => rfl, fun _ => rfl, by simp, by simp, by simp, rfl, rfl⟩, by simp⟩

theorem exec_chk_keeps (g : Word) (h : exec (.chk g) s = .next t) : KeepsBuffersAndResult s t ∧ t.crc = s.crc := by
  obtain ⟨b, e, rfl⟩ := execChk_inv s t g h
  exact ⟨⟨rfl, rfl, rfl, rfl, fun _ => rfl, fun _ => rfl, by simp, by simp, by simp, rfl, rfl⟩, rfl⟩

theorem decodeFail_keeps (e : ErrorCode) : KeepsAllButResult s (decodeFail e s) :=
  ⟨rfl, rfl, rfl, rfl, fun _ => rfl, fun _ => rfl, by simp, by simp, rfl, rfl⟩

theorem decodeCommit_keeps (k : Nat) : KeepsAllButResult s (decodeCommit k s) :=
  ⟨rfl, rfl, rfl, rfl, fun _ => rfl, fun _ => rfl, by simp, by simp, rfl, rfl⟩

theorem decodedState_keeps (k : Nat) : KeepsAllButResult s (decodedState k s) := by
  unfold decodedState
  split
  · exact decodeFail_keeps s _
  · split
    · exact decodeCommit_keeps s k
    · exact decodeFail_keeps s _

theorem exec_decoder_keeps (d : Instr × Nat) (hd : d ∈ decoders) (h : exec d.1 s = .next t) : KeepsAllButResult s t := by
  obtain rfl := Host.Outcome.next.inj ((exec_decoder s d hd).symm.trans h)
  exact decodedState_keeps s d.2

theorem exec_frame_keeps (hb : i.buildsFrame = true) (h : exec i s = .next t) : KeepsAllButFrame s t := by
  obtain ⟨bs, n, k, e, hlen, hop⟩ := exec_storesFrame i hb
  obtain rfl := Host.Outcome.next.inj ((hop s).symm.trans h)
  refine ⟨rfl, rfl, rfl, fun _ => rfl, fun a ha => ?_, by simp, by simp, by simp, by simp, rfl, rfl⟩
  exact Memory.read_writeBytes_outside bs s.tx 0 a (hlen ▸ ha)

/-! ## What the results depend on -/

variable (s' : State)

/-- Groups inside the bytes where two states agree are the same. -/
theorem rxGroup_congr {n : Nat} (hr : ∀ a < n, s.rx.read a = s'.rx.read a) (g : Nat) (hg : 3 * g + 3 ≤ n) :
    rxGroup s g = rxGroup s' g := by
  simp only [rxGroup, hr (3 * g) (by omega), hr (3 * g + 1) (by omega), hr (3 * g + 2) (by omega)]

theorem groupsIntact_congr (k : Nat) (hr : ∀ a < 3 * k, s.rx.read a = s'.rx.read a) :
    groupsIntact s k = groupsIntact s' k := by
  have hg : ∀ g < k, rxGroup s g = rxGroup s' g := fun g hlt => rxGroup_congr s s' hr g (by omega)
  rw [Bool.eq_iff_iff, groupsIntact_iff, groupsIntact_iff]
  exact forall₂_congr fun g hlt => by rw [hg g hlt]

theorem decodedWords_congr (k : Nat) (hr : ∀ a < 3 * k, s.rx.read a = s'.rx.read a) :
    decodedWords k s = decodedWords k s' := by
  refine Vector.ext fun g hg => ?_
  rw [decodedWords_getElem, decodedWords_getElem]
  split
  · next hlt => rw [rxWord, rxWord, hr _ (by omega), hr _ (by omega)]
  · rfl

/-- The error and the result of a decode depend on `RXLEN` and the loaded bytes alone. -/
theorem decodedState_congr (k : Nat) (hlen : s.rxLen = s'.rxLen)
    (hr : ∀ a < s.rxLen.toNat, s.rx.read a = s'.rx.read a) :
    (decodedState k s).err = (decodedState k s').err ∧ (decodedState k s).w = (decodedState k s').w ∧
    (decodedState k s).valid = (decodedState k s').valid ∧ (decodedState k s).ngrp = (decodedState k s').ngrp := by
  by_cases hk : s.rxLen.toNat = 3 * k
  · have hk' : s'.rxLen.toNat = 3 * k := hlen ▸ hk
    rw [hk] at hr
    have hsame := groupsIntact_congr s s' k hr
    by_cases hg : groupsIntact s k = true
    · rw [decodedState_of_intact s k hk hg, decodedState_of_intact s' k hk' (hsame ▸ hg)]
      simpa using decodedWords_congr s s' k hr
    · rw [decodedState_of_corrupted s k hk hg, decodedState_of_corrupted s' k hk' (hsame ▸ hg)]
      simp
  · rw [decodedState_of_length s k hk, decodedState_of_length s' k (hlen ▸ hk)]
    simp

/-- So do the error and the outcome of `CHK`. -/
theorem execChk_congr (t' : State) (g : Word) (hlen : s.rxLen = s'.rxLen)
    (hr : ∀ a < s.rxLen.toNat, s.rx.read a = s'.rx.read a) (h : execChk g s = .next t)
    (h' : execChk g s' = .next t') : t.err = t'.err ∧ t.matched = t'.matched := by
  obtain ⟨hs, rfl⟩ | ⟨hs, -, rfl⟩ := execChk_cases s t g h
  · obtain ⟨-, rfl⟩ | ⟨hs', -, -⟩ := execChk_cases s' t' g h'
    · simp
    · rw [← hlen] at hs'; omega
  · obtain ⟨hs', -⟩ | ⟨-, -, rfl⟩ := execChk_cases s' t' g h'
    · rw [← hlen] at hs'; omega
    · simp [rxGroup_congr s s' hr _ hs]

/-! ## The same operation again -/

theorem setCrc_setErr_again (c : Byte) (e : ErrorCode) :
    (((s.setCrc c).setErr e).setCrc c).setErr e = (s.setCrc c).setErr e :=
  State.eq_of_flags rfl (by simp) (by simp) (by simp) (by simp) (by simp)

theorem setMatched_setErr_again (b : Bool) (e : ErrorCode) :
    (((s.setMatched b).setErr e).setMatched b).setErr e = (s.setMatched b).setErr e :=
  State.eq_of_flags rfl (by simp) (by simp) (by simp) (by simp) (by simp)

theorem decodeFail_again (e : ErrorCode) : decodeFail e (decodeFail e s) = decodeFail e s :=
  State.eq_of_flags rfl (by simp) (by simp) (by simp) (by simp) (by simp)

theorem decodeCommit_again (k : Nat) : decodeCommit k (decodeCommit k s) = decodeCommit k s :=
  State.eq_of_flags rfl (by simp) (by simp) (by simp) (by simp) (by simp)

theorem setFrame_setErr_again (bs : List Byte) (n : BitVec 3) (k : BitVec 5) (e : ErrorCode) (h : s.tx.wf = true) :
    ((((s.setFrame (s.tx.writeBytes 0 bs) n k).setErr e).setFrame
      (((s.setFrame (s.tx.writeBytes 0 bs) n k).setErr e).tx.writeBytes 0 bs) n k).setErr e) =
    (s.setFrame (s.tx.writeBytes 0 bs) n k).setErr e := by
  rw [State.setErr_tx, State.setFrame_tx, Memory.writeBytes_again s.tx 0 bs h]
  exact State.eq_of_flags rfl (by simp) (by simp) (by simp) (by simp) (by simp)

/-- A decode leaves `RX` and `RXLEN`, so it takes the same branch again. -/
theorem decodedState_again (k : Nat) : decodedState k (decodedState k s) = decodedState k s := by
  by_cases hk : s.rxLen.toNat = 3 * k
  · by_cases hg : groupsIntact s k = true
    · rw [decodedState_of_intact s k hk hg, decodedState_of_intact (decodeCommit k s) k hk hg, decodeCommit_again]
    · rw [decodedState_of_corrupted s k hk hg, decodedState_of_corrupted (decodeFail _ s) k hk hg, decodeFail_again]
  · rw [decodedState_of_length s k hk, decodedState_of_length (decodeFail _ s) k hk, decodeFail_again]

theorem execChk_again (g : Word) (h : execChk g s = .next t) : execChk g t = .next t := by
  obtain ⟨hs, rfl⟩ | ⟨hs, h18, rfl⟩ := execChk_cases s t g h
  · rw [execChk_of_short _ g (by simpa using hs), setMatched_setErr_again]
  · have hsame : rxGroup ((s.setMatched (rxGroup s g.toNat).intact).setErr .none) g.toNat = rxGroup s g.toNat := rfl
    rw [execChk_of_inside _ g (by simpa using hs) h18, hsame, setMatched_setErr_again]

/-! ## Reset -/

/-- The reset state is what `CLR` leaves of it (rule R151). -/
theorem State.cleared_reset : State.reset.cleared = State.reset := rfl

end Sys2Proof.Machine

namespace Sys2Proof.Claims

open Sys2Proof.Machine

/-- Settles O34: each class keeps what its rule says it keeps, and what is left is its own to write. -/
theorem eachItemHasItsWriters : Obligations.EachItemHasItsWriters := by
  intro i s t h hclr
  obtain rfl | ⟨arg, rfl⟩ | ⟨g, rfl⟩ | ⟨d, hd, rfl⟩ | hb := instr_classes i
  case inl => exact absurd rfl hclr
  case inr.inl =>
    obtain ⟨keeps, hmatched⟩ := exec_crc8_keeps s t arg h
    exact ⟨fun hn => absurd rfl (hn arg), fun _ => hmatched, fun _ => ⟨keeps.words, keeps.valid, keeps.ngrp⟩,
      fun _ => ⟨keeps.txLen, keeps.expLen, keeps.txBytes⟩, fun a _ => keeps.txBytes a, keeps.rxLen, keeps.rxBytes,
      keeps.reservedBit, keeps.program, keeps.records⟩
  case inr.inr.inl =>
    obtain ⟨keeps, hcrc⟩ := exec_chk_keeps s t g h
    exact ⟨fun _ => hcrc, fun hn => absurd rfl (hn g), fun _ => ⟨keeps.words, keeps.valid, keeps.ngrp⟩,
      fun _ => ⟨keeps.txLen, keeps.expLen, keeps.txBytes⟩, fun a _ => keeps.txBytes a, keeps.rxLen, keeps.rxBytes,
      keeps.reservedBit, keeps.program, keeps.records⟩
  case inr.inr.inr.inl =>
    have keeps := exec_decoder_keeps s t d hd h
    exact ⟨fun _ => keeps.crc, fun _ => keeps.matched, fun hn => absurd rfl (hn d hd),
      fun _ => ⟨keeps.txLen, keeps.expLen, keeps.txBytes⟩, fun a _ => keeps.txBytes a, keeps.rxLen, keeps.rxBytes,
      keeps.reservedBit, keeps.program, keeps.records⟩
  case inr.inr.inr.inr =>
    have keeps := exec_frame_keeps s t i hb h
    exact ⟨fun _ => keeps.crc, fun _ => keeps.matched, fun _ => ⟨keeps.words, keeps.valid, keeps.ngrp⟩,
      fun hn => absurd hb (by simp [hn]), keeps.txOutside, keeps.rxLen, keeps.rxBytes, keeps.reservedBit, keeps.program,
      keeps.records⟩

/-- Settles O35: what is written comes from `ARG`, but in `CHK` and the decodes, which read `RXLEN` and the loaded bytes. -/
theorem resultsDependOnInputsOnly : Obligations.ResultsDependOnInputsOnly := by
  intro i s s' t t' hwf hwf' hlen hr h h'
  have crc : ∀ arg, i = .crc8 arg → t.err = t'.err ∧ t.crc = t'.crc := by
    rintro arg rfl
    obtain rfl := Host.Outcome.next.inj h
    obtain rfl := Host.Outcome.next.inj h'
    simp
  have comparison : ∀ g, i = .chk g → t.err = t'.err ∧ t.matched = t'.matched := by
    rintro g rfl
    exact execChk_congr s t s' t' g hlen hr h h'
  have result : ∀ d ∈ decoders, i = d.1 → t.err = t'.err ∧ t.w = t'.w ∧ t.valid = t'.valid ∧ t.ngrp = t'.ngrp := by
    rintro d hd rfl
    obtain rfl := Host.Outcome.next.inj ((exec_decoder s d hd).symm.trans h)
    obtain rfl := Host.Outcome.next.inj ((exec_decoder s' d hd).symm.trans h')
    exact decodedState_congr s s' d.2 hlen hr
  have frame : i.buildsFrame = true → t.err = t'.err ∧ t.tx.readBytes 0 5 = t'.tx.readBytes 0 5 ∧ t.txLen = t'.txLen ∧
      t.expLen = t'.expLen := by
    intro hb
    obtain ⟨bs, n, k, e, hbs, hop⟩ := exec_storesFrame i hb
    obtain rfl := Host.Outcome.next.inj ((hop s).symm.trans h)
    obtain rfl := Host.Outcome.next.inj ((hop s').symm.trans h')
    simp [Memory.readBytes_writeBytes, hwf, hwf', hbs]
  refine ⟨?err, fun hb => (frame hb).2, fun ⟨d, hd, hi⟩ => (result d hd hi).2, fun ⟨g, hi⟩ => (comparison g hi).2,
    fun ⟨arg, hi⟩ => (crc arg hi).2⟩
  case err =>
    obtain rfl | ⟨arg, hi⟩ | ⟨g, hi⟩ | ⟨d, hd, hi⟩ | hb := instr_classes i
    · obtain rfl := Host.Outcome.next.inj h
      obtain rfl := Host.Outcome.next.inj h'
      simp
    · exact (crc arg hi).1
    · exact (comparison g hi).1
    · exact (result d hd hi).1
    · exact (frame hb).1

/-- Settles O41: the operation leaves what it reads, and writes again what stands there. -/
theorem operationsAreIdempotent : Obligations.OperationsAreIdempotent := by
  intro i s t hwf h
  obtain rfl | ⟨arg, rfl⟩ | ⟨g, rfl⟩ | ⟨d, hd, rfl⟩ | hb := instr_classes i
  case inl =>
    obtain rfl := Host.Outcome.next.inj h
    rfl
  case inr.inl =>
    obtain rfl := Host.Outcome.next.inj h
    exact congrArg Host.Outcome.next (setCrc_setErr_again s _ _)
  case inr.inr.inl => exact execChk_again s t g h
  case inr.inr.inr.inl =>
    obtain rfl := Host.Outcome.next.inj ((exec_decoder s d hd).symm.trans h)
    rw [exec_decoder _ d hd, decodedState_again]
  case inr.inr.inr.inr =>
    obtain ⟨bs, n, k, e, -, hop⟩ := exec_storesFrame i hb
    obtain rfl := Host.Outcome.next.inj ((hop s).symm.trans h)
    rw [hop, setFrame_setErr_again s bs n k e hwf]

/-- Settles O1: the reset state is a cleared state, and `CLR` clears every state. -/
theorem resetLeavesEveryItemZero : Obligations.ResetLeavesEveryItemZero := by
  rw [Obligations.ResetLeavesEveryItemZero, ← State.cleared_reset]
  refine ⟨rfl, rfl, rfl, rfl, rfl, by decide, fun _ => rfl, fun _ => rfl, State.cleared_valid _, State.cleared_matched _,
    State.cleared_err _, State.cleared_ngrp _, by decide, by decide, by decide, by decide, fun s => ⟨s.cleared, rfl, rfl⟩⟩

/-- Settles O32: the halves of a concatenation are its parts. -/
theorem floatViewHalvesAreWords : Obligations.FloatViewHalvesAreWords := by
  intro s j
  constructor
  · rw [State.f, BitVec.extractLsb'_append_eq_left]
  · rw [State.f, BitVec.extractLsb'_append_eq_right]

/-- Every byte is the sum of the five fields of Table ST-2. -/
theorem status_toNat : ∀ st : BitVec 8, st.toNat =
    (st.getLsbD 0).toNat + 2 * (st.getLsbD 1).toNat + 4 * (st.extractLsb' 2 2).toNat +
      16 * (st.extractLsb' 4 3).toNat + 128 * (st.getLsbD 7).toNat := by
  decide

/-- Settles O40: the fields stand side by side in the byte, and the codes are those of Table X-1. -/
theorem statusFieldsStandAsTabulated : Obligations.StatusFieldsStandAsTabulated :=
  ⟨fun s => status_toNat s.status, rfl, rfl, rfl, rfl⟩

end Sys2Proof.Claims
end

section
/-! PROOFS. One step of the host beside the operations: `LOADRX` (rule R18), a placed table word (assumption 7), and the
transport's write and read (rule R41; assumptions 8 and 13). -/

namespace Sys2Proof.Machine

open Sys2Proof.Claims

variable (s : State) (rest : List HostAction)

/-! ## `LOADRX` (rule R18) -/

/-- The state after a load. -/
def loadedState (bs : List Byte) (s : State) : State :=
  s.setReceived (s.rx.writeBytes 0 (paddedLoad bs)) (BitVec.ofNat 5 bs.length)

theorem performLoadRx_of_le (bs : List Byte) (h : bs.length ≤ 18) : performLoadRx bs s = .next (loadedState bs s) :=
  (performLoadRx_eq s bs).trans (if_pos h)

theorem performLoadRx_of_lt (bs : List Byte) (h : ¬ bs.length ≤ 18) : performLoadRx bs s = .refused .loadTooLong :=
  (performLoadRx_eq s bs).trans (if_neg h)

theorem loadedState_rxLen (bs : List Byte) (h : bs.length ≤ 18) : (loadedState bs s).rxLen.toNat = bs.length :=
  rxLen_after_load bs h

theorem loadedState_rx_read (bs : List Byte) (a : Nat) (hwf : s.rx.wf = true) (h : bs.length ≤ 18) :
    (loadedState bs s).rx.read a = if a < 18 then bs.getD a 0 else s.rx.read a :=
  rx_read_after_load s.rx bs a hwf h

/-- A load in keeping with rule R153 (d), as a step. -/
theorem step_loadRx (bs : List Byte) (hp : s.program = .loadRx bs :: rest) (h : bs.length ≤ 18)
    (hf : contractFault (.loadRx bs) s = none) :
    step s = .next ((loadedState bs (s.setProgram rest)).setRecords (s.records.afterLoad bs)) :=
  step_eq_next s rest (.loadRx bs) _ hp hf (performLoadRx_of_le _ bs h)

/-- A load of more than 18 bytes is no action, and so breaks no duty before it is refused. -/
theorem step_loadRx_too_long (bs : List Byte) (hp : s.program = .loadRx bs :: rest) (h : ¬ bs.length ≤ 18) :
    step s = .refused .loadTooLong := by
  have hf : contractFault (.loadRx bs) s = none := if_neg fun hc => h hc.2
  rw [step_of_no_fault s rest _ hp hf, performAction, performLoadRx_of_lt _ bs h, keepRecords]

/-! ## A placed table word (assumption 7) -/

/-- The block's decoder reads back what the encoder of the host format writes (rule R47). -/
theorem decodeIssue_encode (i : Instr) : decodeIssue (encode i).1 (encode i).2 = .ok i := by
  cases i <;> rfl

/-- The action placed for bits that decode to an instruction issues that instruction. -/
theorem actionsOfTableWord_of_decoded (nbits w : Nat) (i : Instr) (h : decodeTableWord nbits w = some i) :
    ∃ opsel arg, actionsOfTableWord nbits w = [.issue opsel arg] ∧ decodeIssue opsel arg = .ok i := by
  by_cases h8 : nbits = 8
  · subst h8
    refine ⟨BitVec.ofNat 8 w, 0, rfl, ?_⟩
    unfold decodeTableWord at h
    split at h
    · cases h
    · rw [if_pos rfl] at h
      cases hd : decodeIssue (BitVec.ofNat 8 w) 0 with
      | ok j => rw [hd] at h; exact congrArg Except.ok (Option.some.inj h)
      | error e => rw [hd] at h; cases h
  · refine ⟨(encode i).1, (encode i).2, ?_, decodeIssue_encode i⟩
    rw [actionsOfTableWord, if_neg h8, h]

/-! ## The transport (rule R41) -/

theorem sendFault_of_not_connected (hn : s.txLen.toNat ≠ 0) (hc : s.records.connected = false) :
    sendFault s = some .notConnected := by
  rw [sendFault, if_neg hn, if_pos hc]

/-- With a session and the error checked, what became of the frame decides. -/
theorem sendFault_of_checked (hn : s.txLen.toNat ≠ 0) (hc : s.records.connected = true)
    (hu : .frame ∉ s.records.unchecked) :
    sendFault s = if s.records.frame = .untaken then none else some .frameSentTwice := by
  rw [sendFault, if_neg hn, if_neg (by simp [hc]), if_neg hu]

/-- A send without fault is one of a frame, which was to be taken. -/
theorem sendFault_eq_none (h : sendFault s = none) : s.txLen.toNat ≠ 0 ∧ s.records.frame = .untaken := by
  unfold sendFault at h
  split_ifs at h with hn hc hu hf
  exact ⟨hn, hf⟩

theorem receiveFault_of_not_connected (hc : s.records.connected = false) : receiveFault s = some .notConnected :=
  if_pos hc

/-- With a session, a read is due or it is not. -/
theorem receiveFault_of_connected (hc : s.records.connected = true) :
    receiveFault s = if s.records.frame = .sent ∧ s.expLen.toNat ≠ 0 then none else some .noReplyExpected :=
  if_neg (by simp [hc])

/-- A read without fault follows a frame written whose command has a response. -/
theorem receiveFault_eq_none (h : receiveFault s = none) : s.records.frame = .sent ∧ s.expLen.toNat ≠ 0 := by
  unfold receiveFault at h
  split_ifs at h with hc hf
  exact hf

theorem performReceive_of_answer (bs : List Byte) (h : answersCommand s bs = true) :
    performReceive (some bs) s = .next s := if_pos h

theorem performReceive_of_no_answer (bs : List Byte) (h : ¬ answersCommand s bs = true) :
    performReceive (some bs) s = .refused .replyLength := if_neg h

end Sys2Proof.Machine

namespace Sys2Proof.Claims

open Sys2Proof.Machine

/-- Settles O33: the step is the load, which writes the two items of the receive buffer. -/
theorem loadRxWritesOnlyReceiveBuffer : Obligations.LoadRxWritesOnlyReceiveBuffer := by
  intro s bs rest hp hwf
  refine ⟨fun h hf => ⟨_, step_loadRx s rest bs hp h hf, ?_⟩, contractFault_loadRx_of_not_bound s bs,
    step_loadRx_too_long s rest bs hp⟩
  refine ⟨loadedState_rxLen (s.setProgram rest) bs h, fun a ha => ?inside, fun a ha => ?outside, rfl, rfl, rfl, rfl, rfl, fun _ => rfl,
    rfl, rfl⟩
  case inside => exact (loadedState_rx_read (s.setProgram rest) bs a hwf h).trans (if_pos ha)
  case outside => exact (loadedState_rx_read (s.setProgram rest) bs a hwf h).trans (if_neg ha)

/-- Settles O42: what is placed is an issue of the instruction, and a host that never called `open` breaks no duty by it. -/
theorem placedWordRunsItsInstruction : Obligations.PlacedWordRunsItsInstruction := by
  intro s nbits w i h
  obtain ⟨opsel, arg, hactions, hd⟩ := actionsOfTableWord_of_decoded nbits w i h
  have hp : (s.withFetchWord nbits w).program = .issue opsel arg :: s.program := by
    rw [State.withFetchWord, State.setProgram_program, hactions]
    rfl
  exact (stepRunsIssuedOperation (s.withFetchWord nbits w) opsel arg s.program i hp hd).2 (.inl rfl)

/-- Settles O52: the checks before a send, one by one, and the record it leaves. -/
theorem frameIsSentOnce : Obligations.FrameIsSentOnce := by
  intro s rest b hp hn
  refine ⟨fun hc => ?unconnected, fun hc hu => ⟨fun hf => ?untaken, fun hf => ?taken⟩⟩
  case unconnected => exact step_of_fault s rest _ _ hp (sendFault_of_not_connected s hn hc)
  case untaken =>
    exact step_of_touchesNothing s rest (.send b) rfl hp ((sendFault_of_checked s hn hc hu).trans (if_pos hf))
  case taken => exact step_of_fault s rest _ _ hp ((sendFault_of_checked s hn hc hu).trans (if_neg hf))

/-- Settles O53: the checks before a read, then its length, and the command that the bytes are recorded to answer. -/
theorem transportReadAnswersSentCommand : Obligations.TransportReadAnswersSentCommand := by
  intro s rest answer hp
  refine ⟨fun hc => ?unconnected, fun hc => ⟨fun hnot => ?notDue, fun hsent hexp bs hbs => ?due⟩⟩
  case unconnected => exact step_of_fault s rest _ _ hp (receiveFault_of_not_connected s hc)
  case notDue =>
    refine step_of_fault s rest _ _ hp ((receiveFault_of_connected s hc).trans (if_neg fun hdue => ?_))
    exact hnot.elim (fun hf => hf hdue.1) hdue.2
  case due =>
    subst hbs
    have hf : contractFault (.receive (some bs)) s = none := (receiveFault_of_connected s hc).trans (if_pos ⟨hsent, hexp⟩)
    refine ⟨fun hlen => ?otherLength, fun hlen i hi => ?answer⟩
    case otherLength =>
      have hno : ¬ answersCommand (s.setProgram rest) bs = true := fun ha => hlen ((answersCommand_iff _ bs).mp ha).2
      rw [step_of_no_fault s rest _ hp hf, performAction, performReceive_of_no_answer _ bs hno, keepRecords]
    case answer =>
      have ha : answersCommand (s.setProgram rest) bs = true := (answersCommand_iff _ bs).mpr ⟨hexp, hlen⟩
      have hcommand : (parseFrame (s.setProgram rest).frame).toOption = some i := congrArg Except.toOption hi
      rw [step_eq_next s rest _ _ hp hf (performReceive_of_answer _ bs ha), State.recorded, Records.after,
        Records.afterReceive, hcommand]
      rfl

end Sys2Proof.Claims
end

section
/-! PROOFS. What every step keeps: the legal values (rule R25), the contents the operation rules promise (rules R11, R15 to
R18, R53), and records of the host that are true of the block (assumption 8). A property of the block that each of its
writes keeps is kept by every step (`ClosedUnderWrites.step`); the records are followed action by action. -/

namespace Sys2Proof.Machine

open Sys2Proof.Claims

variable (s t : State) (i : Instr)

/-! ## The frames that encode operations store (rules R53, R75) -/

/-- The five bytes that an encode operation stores, with `TXLEN` and `EXPLEN`: no frame and no response, or a command frame
whose response length is `EXPLEN`; zeros after it. -/
structure CommandBytes (bs : List Byte) (n : BitVec 3) (k : BitVec 5) : Prop where
  length_eq : bs.length = 5
  txLen_legal : n.toNat = 0 ∨ n.toNat = 2 ∨ n.toNat = 5
  expLen_legal : k.toNat = 0 ∨ k.toNat = 3 ∨ k.toNat = 18
  tail_zero : ∀ a, n.toNat ≤ a → bs.getD a 0 = 0
  no_frame : n.toNat = 0 → k.toNat = 0
  parses : n.toNat ≠ 0 → ∃ j, parseFrame (bs.take n.toNat) = .ok j ∧ responseLength j = k.toNat

/-- The operation stores such bytes, in every state. -/
def StoresCommand (op : State → Host.Outcome State Fault Refusal) : Prop :=
  ∃ bs n k e, CommandBytes bs n k ∧ ∀ s, op s = .next ((s.setFrame (s.tx.writeBytes 0 bs) n k).setErr e)

/-- A response has 0, 3 or 18 bytes (rule R50). -/
theorem responseLength_legal : responseLength i = 0 ∨ responseLength i = 3 ∨ responseLength i = 18 := by
  cases i <;> simp [responseLength]

theorem emit2_storesCommand (reg : Word) (n : BitVec 5) (hp : parseFrame [hiByte reg, loByte reg] = .ok i)
    (hn : responseLength i = n.toNat) : StoresCommand (emit2 reg n) := by
  have hbytes : CommandBytes [hiByte reg, loByte reg, 0, 0, 0] 2 n := by
    refine ⟨rfl, .inr (.inl rfl), hn ▸ responseLength_legal i, fun a ha => ?_, fun h => absurd h (by decide),
      fun _ => ⟨i, hp, hn⟩⟩
    match a, ha with
    | 2, _ | 3, _ | 4, _ | _ + 5, _ => rfl
  exact ⟨_, 2, n, _, hbytes, emit2_eq_next reg n⟩

theorem emit5_storesCommand (reg p : Word) (hp : parseF5 reg (hiByte p) (loByte p) = .ok i)
    (hn : responseLength i = 0) : StoresCommand (emit5 reg p) := by
  have hparse : parseFrame [hiByte reg, loByte reg, hiByte p, loByte p, crc8 (hiByte p) (loByte p)] = .ok i := by
    rw [parseFrame, if_pos rfl, hiByte_append_loByte, hp]
  have hbytes : CommandBytes [hiByte reg, loByte reg, hiByte p, loByte p, crc8 (hiByte p) (loByte p)] 5 0 :=
    ⟨rfl, .inr (.inr rfl), .inl rfl, fun a ha => List.getD_eq_default _ _ ha, fun h => absurd h (by decide),
      fun _ => ⟨i, hparse, hn⟩⟩
  exact ⟨_, 5, 0, _, hbytes, emit5_eq_next reg p⟩

theorem refuse_storesCommand : StoresCommand refuse := by
  refine ⟨_, 0, 0, _, ⟨rfl, .inl rfl, .inl rfl, fun a _ => ?_, fun _ => rfl, fun h => absurd rfl h⟩, refuse_eq_next⟩
  match a with
  | 0 | 1 | 2 | 3 | 4 | _ + 5 => rfl

theorem hiByte_toNat (v : Word) : (hiByte v).toNat = v.toNat / 256 := by
  have := v.isLt
  simp only [hiByte, BitVec.extractLsb'_toNat, Nat.shiftRight_eq_div_pow]
  omega

theorem loByte_toNat (v : Word) : (loByte v).toNat = v.toNat % 256 := by
  simp [loByte, BitVec.extractLsb'_toNat]

/-- The parameter of `WRINT` is the low byte of `ARG` alone (rule R79). -/
theorem lowByteParameter_toNat (v : Word) : (lowByteParameter v).toNat = v.toNat % 256 := by
  rw [lowByteParameter, BitVec.toNat_setWidth, loByte_toNat]
  omega

/-- `WRINT` inside its range builds a `WRINT` frame (rule R79). -/
theorem execWrint_storesCommand (sec : Word) : StoresCommand (execWrint sec) := by
  by_cases h : sec.toNat = 0 ∨ sec.toNat > 255
  · rw [show execWrint sec = refuse from funext fun _ => if_pos h]
    exact refuse_storesCommand
  · rw [show execWrint sec = emit5 0x4600 (lowByteParameter sec) from funext fun _ => if_neg h]
    have hhi : hiByte (lowByteParameter sec) = 0 := by
      apply BitVec.eq_of_toNat_eq
      rw [hiByte_toNat, lowByteParameter_toNat]
      exact Nat.div_eq_of_lt (Nat.mod_lt _ (by decide))
    have hlo : loByte (lowByteParameter sec) ≠ 0 := by
      intro h0
      have hz := congrArg BitVec.toNat h0
      rw [loByte_toNat, lowByteParameter_toNat] at hz
      change sec.toNat % 256 % 256 = 0 at hz
      omega
    exact emit5_storesCommand (.wrint _) 0x4600 _ (if_pos ⟨hhi, hlo⟩) rfl

/-- `WRASC` inside its range builds a `WRASC` frame (rule R81). -/
theorem execWrasc_storesCommand (en : Word) : StoresCommand (execWrasc en) := by
  by_cases h : en.toNat > 1
  · rw [show execWrasc en = refuse from funext fun _ => if_pos h]
    exact refuse_storesCommand
  · rw [show execWrasc en = emit5 0x5306 en from funext fun _ => if_neg h]
    have hhi : hiByte en = 0 := by
      apply BitVec.eq_of_toNat_eq
      rw [hiByte_toNat]
      exact Nat.div_eq_of_lt (by omega)
    have hlo : (loByte en).toNat ≤ 1 := by rw [loByte_toNat]; omega
    exact emit5_storesCommand (.wrasc _) 0x5306 en (if_pos ⟨hhi, hlo⟩) rfl

/-- Every encode operation stores a command frame that goes with its `EXPLEN`, or none (rules R76 to R88). -/
theorem exec_storesCommand (h : i.buildsFrame = true) : StoresCommand (exec i) := by
  cases i with
  | clr | crc8 | chk | dec3 | dec6 | dec18 => exact Bool.noConfusion h
  | rdfw => exact emit2_storesCommand .rdfw _ _ rfl rfl
  | srst => exact emit2_storesCommand .srst _ _ rfl rfl
  | rdint => exact emit2_storesCommand .rdint _ _ rfl rfl
  | wrint sec => exact execWrint_storesCommand sec
  | rdasc => exact emit2_storesCommand .rdasc _ _ rfl rfl
  | wrasc en => exact execWrasc_storesCommand en
  | rdfrc => exact emit2_storesCommand .rdfrc _ _ rfl rfl
  | wrfrc v => exact emit5_storesCommand (.wrfrc _) 0x5204 v rfl rfl
  | rdtoff => exact emit2_storesCommand .rdtoff _ _ rfl rfl
  | startc p => exact emit5_storesCommand (.startc _) 0x0010 p rfl rfl
  | rdrdy => exact emit2_storesCommand .rdrdy _ _ rfl rfl
  | stopm => exact emit2_storesCommand .stopm _ _ rfl rfl
  | rdmeas => exact emit2_storesCommand .rdmeas _ _ rfl rfl

/-! ## What every write keeps, every step keeps -/

/-- The property survives every write that an operation or a host action makes, and does not speak of the host's fields. -/
structure ClosedUnderWrites (P : State → Prop) : Prop where
  setHost : ∀ s p c, P s → P ((s.setProgram p).setRecords c)
  setErr : ∀ s e, P s → P (s.setErr e)
  setCrc : ∀ s c, P s → P (s.setCrc c)
  setMatched : ∀ s b, P s → P (s.setMatched b)
  decodeFail : ∀ s e, P s → P (decodeFail e s)
  decodeCommit : ∀ s k, k = 1 ∨ k = 2 ∨ k = 6 → P s → P (decodeCommit k s)
  setFrame : ∀ s bs n k, CommandBytes bs n k → P s → P (s.setFrame (s.tx.writeBytes 0 bs) n k)
  load : ∀ s bs, bs.length ≤ 18 → P s → P (loadedState bs s)
  cleared : ∀ s, P s → P s.cleared

variable {P : State → Prop} {s t i}

theorem ClosedUnderWrites.decodedState (hP : ClosedUnderWrites P) (k : Nat) (hk : k = 1 ∨ k = 2 ∨ k = 6) (h : P s) :
    P (decodedState k s) := by
  unfold Machine.decodedState
  split
  · exact hP.decodeFail s _ h
  · split
    · exact hP.decodeCommit s k hk h
    · exact hP.decodeFail s _ h

theorem ClosedUnderWrites.exec (hP : ClosedUnderWrites P) (h : P s) (ht : exec i s = .next t) : P t := by
  obtain rfl | ⟨arg, rfl⟩ | ⟨g, rfl⟩ | ⟨d, hd, rfl⟩ | hb := instr_classes i
  case inl =>
    obtain rfl := Host.Outcome.next.inj ht
    exact hP.cleared s h
  case inr.inl =>
    obtain rfl := Host.Outcome.next.inj ht
    exact hP.setErr _ _ (hP.setCrc s _ h)
  case inr.inr.inl =>
    obtain ⟨b, e, rfl⟩ := execChk_inv s t g ht
    exact hP.setErr _ e (hP.setMatched s b h)
  case inr.inr.inr.inl =>
    obtain rfl := Host.Outcome.next.inj ((exec_decoder s d hd).symm.trans ht)
    exact hP.decodedState d.2 (decoders_groups d hd) h
  case inr.inr.inr.inr =>
    obtain ⟨bs, n, k, e, hbs, hop⟩ := exec_storesCommand i hb
    obtain rfl := Host.Outcome.next.inj ((hop s).symm.trans ht)
    exact hP.setErr _ e (hP.setFrame s bs n k hbs h)

/-- An undefined code is performed as rule R126 gives it (assumption 4). -/
theorem performAction_undefined (s : State) (opsel : Byte) (arg : Word) (e : DecodeError)
    (hd : decodeIssue opsel arg = .error e) :
    performAction (.issue opsel arg) s = .next (s.setErr .illegalOperation) := by
  simp only [performAction, hd, raiseUndefinedOpsel, raise_eq]

/-- A transport read that answers a next state changes nothing, and its bytes are as many as were expected (rule R41). -/
theorem performReceive_inv (answer : Option (List Byte)) (h : performReceive answer s = .next t) :
    t = s ∧ ∀ bs, answer = some bs → bs.length = s.expLen.toNat := by
  cases answer with
  | none => exact ⟨(Host.Outcome.next.inj h).symm, fun bs hbs => by cases hbs⟩
  | some bs =>
    by_cases ha : answersCommand s bs = true
    · rw [performReceive_of_answer s bs ha] at h
      refine ⟨(Host.Outcome.next.inj h).symm, fun bs' hbs => ?_⟩
      obtain rfl := Option.some.inj hbs
      exact ((answersCommand_iff s bs).mp ha).2
    · rw [performReceive_of_no_answer s bs ha] at h
      cases h

theorem performConnect_inv (h : performConnect s = .next t) : t = s := by
  unfold performConnect at h
  split at h
  · exact (Host.Outcome.next.inj h).symm
  · cases h

theorem performLoadRx_inv (bs : List Byte) (h : performLoadRx bs s = .next t) :
    bs.length ≤ 18 ∧ t = loadedState bs s := by
  by_cases hlen : bs.length ≤ 18
  · exact ⟨hlen, Host.Outcome.next.inj (h.symm.trans (performLoadRx_of_le s bs hlen))⟩
  · rw [performLoadRx_of_lt s bs hlen] at h
    cases h

theorem ClosedUnderWrites.performAction (hP : ClosedUnderWrites P) (a : HostAction) (h : P s)
    (ht : performAction a s = .next t) : P t := by
  cases a with
  | issue opsel arg =>
    cases hd : decodeIssue opsel arg with
    | ok i => exact hP.exec h ((performAction_issue s i opsel arg hd).symm.trans ht)
    | error e =>
      obtain rfl := Host.Outcome.next.inj ((performAction_undefined s opsel arg e hd).symm.trans ht)
      exact hP.setErr s _ h
  | loadRx bs =>
    obtain ⟨hlen, rfl⟩ := performLoadRx_inv bs ht
    exact hP.load s bs hlen h
  | reset =>
    obtain rfl := Host.Outcome.next.inj ht
    exact hP.cleared s h
  | connect => exact performConnect_inv ht ▸ h
  | receive answer => exact (performReceive_inv answer ht).1 ▸ h
  | read | send | disconnect | consume => exact Host.Outcome.next.inj ht ▸ h

/-- The packaged case split over a step. -/
theorem ClosedUnderWrites.step (hP : ClosedUnderWrites P) (h : P s) (ht : step s = .next t) : P t := by
  obtain ⟨-, rfl⟩ | ⟨a, rest, u, -, -, hu, rfl⟩ := step_inv s t ht
  · exact h
  · exact hP.setHost u u.program _ (hP.performAction a (hP.setHost s rest s.records h) hu)

/-! ## The legal values (rule R25) -/

/-- The legal values speak of five items. -/
theorem LegalValues.congr (h : LegalValues s) (htx : t.txLen = s.txLen) (hexp : t.expLen = s.expLen)
    (hrx : t.rxLen = s.rxLen) (hn : t.ngrp = s.ngrp) (hv : t.valid = s.valid) : LegalValues t :=
  ⟨htx ▸ h.txLen_legal, hexp ▸ h.expLen_legal, hrx ▸ h.rxLen_legal, hn ▸ h.ngrp_legal, by rw [hn, hv]; exact h.valid_iff⟩

theorem legalValues_cleared (s : State) : LegalValues s.cleared where
  txLen_legal := .inl rfl
  expLen_legal := .inl rfl
  rxLen_legal := Nat.zero_le 18
  ngrp_legal := .inl (by simp)
  valid_iff := by simp

/-- The numbers of groups that a decode commits fit `NGRP`. -/
theorem ngrp_toNat_of_groups (k : Nat) (hk : k = 1 ∨ k = 2 ∨ k = 6) : (BitVec.ofNat 3 k).toNat = k := by
  obtain rfl | rfl | rfl := hk <;> rfl

theorem legalValues_closed : ClosedUnderWrites LegalValues where
  setHost s p c h := h.congr rfl rfl rfl rfl rfl
  setErr s e h := h.congr rfl rfl rfl (by simp) (by simp)
  setCrc s c h := h.congr rfl rfl rfl rfl rfl
  setMatched s b h := h.congr rfl rfl rfl (by simp) (by simp)
  decodeFail s e h := ⟨h.txLen_legal, h.expLen_legal, h.rxLen_legal, .inl (by simp), by simp⟩
  decodeCommit s k hk h := by
    refine ⟨h.txLen_legal, h.expLen_legal, h.rxLen_legal, ?_, ?_⟩
    · rw [decodeCommit_ngrp, ngrp_toNat_of_groups k hk]
      exact .inr hk
    · rw [decodeCommit_ngrp, ngrp_toNat_of_groups k hk, decodeCommit_valid]
      exact ⟨fun _ => by omega, fun _ => rfl⟩
  setFrame s bs n k hbs h := ⟨hbs.txLen_legal, hbs.expLen_legal, h.rxLen_legal, h.ngrp_legal, h.valid_iff⟩
  load s bs hlen h :=
    ⟨h.txLen_legal, h.expLen_legal, (loadedState_rxLen s bs hlen).symm ▸ hlen, h.ngrp_legal, h.valid_iff⟩
  cleared s _ := legalValues_cleared s

/-! ## The contents (rules R11, R15 to R18, R53) -/

/-- With the buffers and their lengths the same, only the words and the reserved bit are left to see to. -/
theorem WellKept.of_same_buffers (h : WellKept s) (htx : t.tx = s.tx) (htxLen : t.txLen = s.txLen)
    (hexp : t.expLen = s.expLen) (hrx : t.rx = s.rx) (hrxLen : t.rxLen = s.rxLen) (hr : t.reservedBit = s.reservedBit)
    (hw : ∀ g : Fin 6, t.ngrp.toNat ≤ g.val → t.w[g] = 0) : WellKept t := by
  have hframe : t.frame = s.frame := by rw [State.frame, State.frame, htx, htxLen]
  exact ⟨htx ▸ h.tx_wf, hrx ▸ h.rx_wf, by rw [htx, htxLen]; exact h.tx_tail, by rw [hrx, hrxLen]; exact h.rx_tail,
    hr ▸ h.reserved_zero, hw, by rw [htxLen, hexp]; exact h.no_frame,
    by rw [htxLen, hframe, hexp]; exact h.frame_parses⟩

theorem WellKept.congr (h : WellKept s) (htx : t.tx = s.tx) (htxLen : t.txLen = s.txLen) (hexp : t.expLen = s.expLen)
    (hrx : t.rx = s.rx) (hrxLen : t.rxLen = s.rxLen) (hr : t.reservedBit = s.reservedBit) (hw : t.w = s.w)
    (hn : t.ngrp = s.ngrp) : WellKept t :=
  h.of_same_buffers htx htxLen hexp hrx hrxLen hr (by rw [hn, hw]; exact h.words_tail)

theorem wellKept_cleared (s : State) : WellKept s.cleared where
  tx_wf := rfl
  rx_wf := rfl
  tx_tail := rfl
  rx_tail := rfl
  reserved_zero := by simp
  words_tail g _ := by simp
  no_frame _ := rfl
  frame_parses h := absurd rfl h

theorem WellKept.decodeFail (h : WellKept s) (e : ErrorCode) : WellKept (decodeFail e s) :=
  h.of_same_buffers rfl rfl rfl rfl rfl (by simp) fun g _ => by simp

/-- The words beyond the groups committed are 0 (rule R104). -/
theorem WellKept.decodeCommit (h : WellKept s) (k : Nat) (hk : k = 1 ∨ k = 2 ∨ k = 6) : WellKept (decodeCommit k s) := by
  refine h.of_same_buffers rfl rfl rfl rfl rfl (by simp) fun g hg => ?_
  rw [decodeCommit_ngrp, ngrp_toNat_of_groups k hk] at hg
  exact (decodedWords_getElem k s g.val g.isLt).trans (if_neg (by omega))

/-- A stored command frame parses, and zeros follow it (rules R16, R17, R53). -/
theorem WellKept.setFrame (h : WellKept s) (hl : LegalValues s) (bs : List Byte) (n : BitVec 3) (k : BitVec 5)
    (hbs : CommandBytes bs n k) : WellKept (s.setFrame (s.tx.writeBytes 0 bs) n k) := by
  have htxLen := hl.txLen_legal
  have hn := hbs.txLen_legal
  have hlen := hbs.length_eq
  have hwf : (s.tx.writeBytes 0 bs).wf = true := Memory.wf_writeBytes bs s.tx 0 h.tx_wf
  have hframe : (s.setFrame (s.tx.writeBytes 0 bs) n k).frame = bs.take n.toNat :=
    Memory.readBytes_writeBytes s.tx 0 n.toNat bs h.tx_wf (by omega)
  have htail : (s.tx.writeBytes 0 bs).below n.toNat = true := by
    refine (Memory.below_iff _ _ hwf).mpr fun a ha => ?_
    rw [Memory.read_writeBytes bs s.tx 0 a h.tx_wf]
    split
    · exact hbs.tail_zero a ha
    · exact (Memory.below_iff _ _ h.tx_wf).mp h.tx_tail a (by omega)
  exact ⟨hwf, h.rx_wf, htail, h.rx_tail, h.reserved_zero, h.words_tail, hbs.no_frame,
    fun h0 => by rw [hframe]; exact hbs.parses h0⟩

/-- `LOADRX` writes all 18 bytes, so that zeros follow the bytes loaded (rule R18, D22). -/
theorem WellKept.loadedState (h : WellKept s) (hl : LegalValues s) (bs : List Byte) (hlen : bs.length ≤ 18) :
    WellKept (loadedState bs s) := by
  have hrxLen := hl.rxLen_legal
  have hwf : (Machine.loadedState bs s).rx.wf = true := Memory.wf_writeBytes _ s.rx 0 h.rx_wf
  have htail : (Machine.loadedState bs s).rx.below (Machine.loadedState bs s).rxLen.toNat = true := by
    refine (Memory.below_iff _ _ hwf).mpr fun a ha => ?_
    rw [loadedState_rxLen s bs hlen] at ha
    rw [loadedState_rx_read s bs a h.rx_wf hlen]
    split
    · exact List.getD_eq_default bs 0 ha
    · exact (Memory.below_iff _ _ h.rx_wf).mp h.rx_tail a (by omega)
  exact ⟨h.tx_wf, hwf, h.tx_tail, htail, h.reserved_zero, h.words_tail, h.no_frame, h.frame_parses⟩

theorem wellKept_closed : ClosedUnderWrites fun s => LegalValues s ∧ WellKept s where
  setHost s p c h := ⟨legalValues_closed.setHost s p c h.1, h.2.congr rfl rfl rfl rfl rfl rfl rfl rfl⟩
  setErr s e h := ⟨legalValues_closed.setErr s e h.1, h.2.congr rfl rfl rfl rfl rfl (by simp) rfl (by simp)⟩
  setCrc s c h := ⟨legalValues_closed.setCrc s c h.1, h.2.congr rfl rfl rfl rfl rfl rfl rfl rfl⟩
  setMatched s b h := ⟨legalValues_closed.setMatched s b h.1, h.2.congr rfl rfl rfl rfl rfl (by simp) rfl (by simp)⟩
  decodeFail s e h := ⟨legalValues_closed.decodeFail s e h.1, h.2.decodeFail e⟩
  decodeCommit s k hk h := ⟨legalValues_closed.decodeCommit s k hk h.1, h.2.decodeCommit k hk⟩
  setFrame s bs n k hbs h := ⟨legalValues_closed.setFrame s bs n k hbs h.1, h.2.setFrame h.1 bs n k hbs⟩
  load s bs hlen h := ⟨legalValues_closed.load s bs hlen h.1, h.2.loadedState h.1 bs hlen⟩
  cleared s _ := ⟨legalValues_cleared s, wellKept_cleared s⟩

end Sys2Proof.Machine

namespace Sys2Proof.Claims

open Sys2Proof.Machine

/-- Settles O43: every write of the block keeps the legal values. -/
theorem everyStepKeepsLegalValues : Obligations.EveryStepKeepsLegalValues :=
  fun _ _ h ht => legalValues_closed.step h ht

end Sys2Proof.Claims
end

section
/-! PROOFS. The host's records stay true of the block (assumption 8), action by action, and with the contents of the block
(rule R25) they are the whole invariant. -/

namespace Sys2Proof.Machine

open Sys2Proof.Claims

variable {s t : State} {c : Records} {i : Instr}

/-! ## Records that claim the same -/

/-- What the records claim of the block is of four items. -/
theorem RecordsTrue.congr (h : RecordsTrue s c) (htx : t.txLen = s.txLen) (hrx : t.rxLen = s.rxLen)
    (hv : t.valid = s.valid) (hn : t.ngrp = s.ngrp) : RecordsTrue t c :=
  ⟨htx ▸ h.frame_absent, h.reply_length, h.reply_answers, hrx ▸ h.decodable_length, h.loaded_decodable,
    hrx ▸ h.loaded_length, by rw [hv, hn]; exact h.result_groups⟩

/-- The use made of a frame, the session and what is unchecked are no claims about the block. -/
theorem RecordsTrue.of_same_claims (h : RecordsTrue s c) (d : Records) (hf : d.frame = .absent ↔ c.frame = .absent)
    (hreply : d.reply = c.reply) (hdec : d.decodable = c.decodable) (hload : d.loaded = c.loaded)
    (hres : d.result = c.result) : RecordsTrue s d :=
  ⟨hf.trans h.frame_absent, hreply ▸ h.reply_length, hreply ▸ h.reply_answers, hdec ▸ h.decodable_length,
    by rw [hload, hdec]; exact h.loaded_decodable, hload ▸ h.loaded_length, hres ▸ h.result_groups⟩

/-! ## After the actions beside the operations -/

theorem Records.after_undefined (c : Records) (u : State) (opsel : Byte) (arg : Word) (e : DecodeError)
    (hd : decodeIssue opsel arg = .error e) : c.after (.issue opsel arg) u = c.afterUndefined := by
  simp only [Records.after, hd]

theorem RecordsTrue.afterUndefined (h : RecordsTrue s c) : RecordsTrue s c.afterUndefined :=
  h.of_same_claims _ Iff.rfl rfl rfl rfl rfl

theorem RecordsTrue.afterLook (h : RecordsTrue s c) (r : HostReg) : RecordsTrue s (c.afterLook r) :=
  h.of_same_claims _ (by simp) (by simp) (by simp) (by simp) (by simp)

theorem RecordsTrue.afterConnect (h : RecordsTrue s c) (b : Bool) : RecordsTrue s (c.afterConnect b) :=
  h.of_same_claims _ Iff.rfl rfl rfl rfl rfl

/-- A frame that was to be taken is one before and after it was sent. -/
theorem RecordsTrue.afterSend (h : RecordsTrue s c) (b : Bool) (hf : c.frame = .untaken) :
    RecordsTrue s (c.afterSend b) :=
  h.of_same_claims _ (by cases b <;> simp [Records.afterSend, hf]) rfl rfl rfl rfl

theorem RecordsTrue.afterDisconnect (h : RecordsTrue s c) : RecordsTrue s c.afterDisconnect := by
  refine h.of_same_claims _ ?_ rfl rfl rfl rfl
  by_cases hf : c.frame = .sent <;> simp [Records.afterDisconnect, hf]

/-- The bytes read are as many as the command in `TX` expects, and are recorded to answer it. -/
theorem RecordsTrue.afterReceive (h : RecordsTrue s c) (hl : LegalValues s) (hk : WellKept s)
    (answer : Option (List Byte)) (hf : c.frame = .sent) (hexp : s.expLen.toNat ≠ 0)
    (hlen : ∀ bs, answer = some bs → bs.length = s.expLen.toNat) : RecordsTrue s (c.afterReceive answer s) := by
  have hn : s.txLen.toNat ≠ 0 := fun h0 => by simpa [hf] using h.frame_absent.mpr h0
  cases answer with
  | none => exact h.of_same_claims _ (by simp [Records.afterReceive, hf]) rfl rfl rfl rfl
  | some bs =>
    have hbs := hlen bs rfl
    obtain ⟨j, hparse, hj⟩ := hk.frame_parses hn
    refine ⟨by simpa [Records.afterReceive] using hn, ?_, ?_, h.decodable_length, h.loaded_decodable, h.loaded_length,
      h.result_groups⟩
    · intro bs' hbs'
      obtain rfl := Option.some.inj hbs'
      have := hl.expLen_legal
      omega
    · intro i bs' hreply
      simp only [Records.afterReceive, hparse, Except.toOption, Reply.received.injEq, Option.some.injEq] at hreply
      obtain ⟨rfl, rfl⟩ := hreply
      omega

/-- `CLR` and the reset input leave no frame, nothing loaded and no result; the reply is the host's. -/
theorem RecordsTrue.blockCleared (h : RecordsTrue s c) (hn : t.txLen = 0) : RecordsTrue t c.blockCleared where
  frame_absent := by simp [hn]
  reply_length := h.reply_length
  reply_answers := h.reply_answers
  decodable_length hd := by simp at hd
  loaded_decodable hld := by simp at hld
  loaded_length i hld := by simp at hld
  result_groups i hr := by simp at hr

/-- A float pair of a measurement has 6 bytes (rule R32). -/
theorem length_of_mem_floatPairsOf {bs got : List Byte} (hgot : got.length = 18) (h : bs ∈ floatPairsOf got) :
    bs.length = 6 := by
  simp only [floatPairsOf, List.mem_cons, List.not_mem_nil, or_false] at h
  obtain rfl | rfl | rfl := h <;> simp [hgot]

/-- Bytes the reply covers may be loaded; the command they are recorded to answer is one that their length fits. -/
theorem RecordsTrue.length_of_covers (h : RecordsTrue s c) {bs : List Byte} (hc : c.reply.covers bs = true) :
    c.reply.mayLoad bs = true ∧
    ∀ i, c.reply.command = some i → bs.length = responseLength i ∨ i = .rdmeas ∧ bs.length = 6 := by
  rw [Reply.mayLoad_iff]
  obtain hbs | ⟨got, hgot, hcommand, hpair⟩ := (Reply.covers_iff c.reply bs).mp hc
  · exact ⟨.inl hbs, fun i hi => .inl (h.reply_answers i bs ((Reply.eq_received_some i _ bs).mpr ⟨hbs, hi⟩))⟩
  · have hlen : got.length = 18 :=
      h.reply_answers .rdmeas got ((Reply.eq_received_some .rdmeas _ got).mpr ⟨hgot, hcommand⟩)
    have h6 := length_of_mem_floatPairsOf hlen hpair
    exact ⟨.inr h6, fun i hi => .inr ⟨Option.some.inj (hi.symm.trans hcommand), h6⟩⟩

theorem RecordsTrue.afterLoad (h : RecordsTrue s c) (bs : List Byte) (hlen : bs.length ≤ 18) :
    RecordsTrue (loadedState bs s) (c.afterLoad bs) := by
  have hrx : (loadedState bs s).rxLen.toNat = bs.length := loadedState_rxLen s bs hlen
  refine ⟨?frame, h.reply_length, h.reply_answers, fun hd => ?decodable, fun hld => ?loaded, fun i hi => ?loadedLength,
    h.result_groups⟩
  case frame =>
    refine Iff.trans ?_ h.frame_absent
    by_cases hf : c.frame = .writeFailed <;> simp [hf]
  case decodable =>
    rw [hrx]
    obtain hbs | h6 := (Reply.mayLoad_iff c.reply bs).mp hd
    · have := h.reply_length bs hbs
      omega
    · exact .inr (.inl h6)
  case loaded =>
    by_cases hc : c.reply.covers bs = true
    · exact (h.length_of_covers hc).1
    · exact absurd (if_neg hc) hld
  case loadedLength =>
    rw [hrx]
    by_cases hc : c.reply.covers bs = true
    · exact (h.length_of_covers hc).2 i ((if_pos hc).symm.trans hi)
    · exact absurd ((if_neg hc).symm.trans hi) (by simp)

/-! ## After an operation -/

theorem newFrameUse_eq_absent (u : State) : newFrameUse u = .absent ↔ u.txLen.toNat = 0 := by
  unfold newFrameUse
  split <;> simp_all

/-- An operation that decodes no length is none of the decode operations. -/
theorem ne_decoder_of_decodeLength (h : decodeLength i = none) (d : Instr × Nat) (hd : d ∈ decoders) : i ≠ d.1 := by
  rintro rfl
  obtain rfl | rfl | rfl := (mem_decoders_iff d).mp hd <;> cases h

/-- An operation that decodes a length is one of the decode operations. -/
theorem exists_decoder_of_decodeLength (h : decodeLength i ≠ none) : ∃ d ∈ decoders, i = d.1 := by
  cases i with
  | dec3 => exact ⟨(.dec3, 1), by simp [decoders], rfl⟩
  | dec6 => exact ⟨(.dec6, 2), by simp [decoders], rfl⟩
  | dec18 => exact ⟨(.dec18, 6), by simp [decoders], rfl⟩
  | _ => exact absurd rfl h

/-- A result that stands after a decode has the groups of the bytes loaded (rule R11). -/
theorem groups_of_decodedState (k : Nat) (hk : k = 1 ∨ k = 2 ∨ k = 6) (hv : (decodedState k s).valid = true) :
    3 * (decodedState k s).ngrp.toNat = s.rxLen.toNat := by
  by_cases hlen : s.rxLen.toNat = 3 * k
  · by_cases hg : groupsIntact s k = true
    · rw [decodedState_of_intact s k hlen hg, decodeCommit_ngrp, ngrp_toNat_of_groups k hk, hlen]
    · rw [decodedState_of_corrupted s k hlen hg] at hv
      simp at hv
  · rw [decodedState_of_length s k hlen] at hv
    simp at hv

/-- The records after an operation other than `CLR`: what each item's writers leave decides each claim. -/
theorem RecordsTrue.afterIssue_of_ne_clr (h : RecordsTrue s c) (hclr : i ≠ .clr) (ht : exec i s = .next t) :
    RecordsTrue t (c.afterIssue i t) := by
  obtain ⟨-, -, hresult, htx, -, hrx, -⟩ := eachItemHasItsWriters i s t ht hclr
  rw [Records.afterIssue_eq c i t hclr]
  refine ⟨?frame, ?replyLength, ?replyAnswers, ?decodable, ?loaded, ?loadedLength, ?result⟩
  case frame =>
    cases hb : i.buildsFrame with
    | true => exact newFrameUse_eq_absent t
    | false => rw [(htx hb).1]; exact h.frame_absent
  case replyLength => simpa using h.reply_length
  case replyAnswers =>
    intro j bs hj
    obtain ⟨hbytes, hcommand⟩ := (Reply.eq_received_some j _ bs).mp hj
    rw [Reply.askedAnew_bytes] at hbytes
    rw [Reply.askedAnew_command, stillAnswers_eq_some] at hcommand
    exact h.reply_answers j bs ((Reply.eq_received_some j _ bs).mpr ⟨hbytes, hcommand.1⟩)
  case decodable => rw [hrx]; exact h.decodable_length
  case loaded =>
    intro hld
    obtain ⟨j, hj⟩ := Option.ne_none_iff_exists'.mp hld
    exact h.loaded_decodable (by simp [((stillAnswers_eq_some i _ j).mp hj).1])
  case loadedLength =>
    intro j hj
    rw [hrx]
    exact h.loaded_length j ((stillAnswers_eq_some i _ j).mp hj).1
  case result =>
    intro j hj hv
    by_cases hd : decodeLength i = none
    · obtain ⟨-, hvalid, hngrp⟩ := hresult (ne_decoder_of_decodeLength hd)
      simp only [hd, if_true] at hj
      rw [hngrp]
      exact h.result_groups j ((stillAnswers_eq_some i _ j).mp hj).1 (hvalid ▸ hv)
    · obtain ⟨d, hmem, rfl⟩ := exists_decoder_of_decodeLength hd
      simp only [hd, if_false] at hj
      obtain rfl := Host.Outcome.next.inj ((exec_decoder s d hmem).symm.trans ht)
      have hgroups := groups_of_decodedState d.2 (decoders_groups d hmem) hv
      exact (h.loaded_length j hj).imp (fun hr => hgroups.trans hr) fun ⟨hj, h6⟩ => ⟨hj, by omega⟩

theorem RecordsTrue.afterIssue (h : RecordsTrue s c) (ht : exec i s = .next t) : RecordsTrue t (c.afterIssue i t) := by
  by_cases hclr : i = .clr
  · subst hclr
    obtain rfl := Host.Outcome.next.inj ht
    exact h.blockCleared rfl
  · exact h.afterIssue_of_ne_clr hclr ht

/-! ## After any action -/

/-- No action's performance touches the records. -/
theorem performAction_records (a : HostAction) (ht : performAction a s = .next t) : t.records = s.records := by
  cases a with
  | issue opsel arg =>
    cases hd : decodeIssue opsel arg with
    | ok i => exact exec_records s t i ((performAction_issue s i opsel arg hd).symm.trans ht)
    | error e =>
      obtain rfl := Host.Outcome.next.inj ((performAction_undefined s opsel arg e hd).symm.trans ht)
      rfl
  | loadRx bs => obtain ⟨-, rfl⟩ := performLoadRx_inv bs ht; rfl
  | connect => rw [performConnect_inv ht]
  | receive answer => rw [(performReceive_inv answer ht).1]
  | reset | read | send | disconnect | consume => obtain rfl := Host.Outcome.next.inj ht; rfl

/-- An action that breaks no duty leaves records that are true of the block it leaves. -/
theorem recordsTrue_after (hl : LegalValues s) (hk : WellKept s) (h : RecordsTrue s s.records) (a : HostAction)
    (hf : contractFault a s = none) (ht : performAction a s = .next t) : RecordsTrue t (s.records.after a t) := by
  cases a with
  | issue opsel arg =>
    cases hd : decodeIssue opsel arg with
    | ok i =>
      rw [Records.after_issue i _ t opsel arg hd]
      exact h.afterIssue ((performAction_issue s i opsel arg hd).symm.trans ht)
    | error e =>
      obtain rfl := Host.Outcome.next.inj ((performAction_undefined s opsel arg e hd).symm.trans ht)
      rw [Records.after_undefined _ _ opsel arg e hd]
      exact h.afterUndefined.congr rfl rfl (by simp) (by simp)
  | loadRx bs =>
    obtain ⟨hlen, rfl⟩ := performLoadRx_inv bs ht
    exact h.afterLoad bs hlen
  | reset =>
    obtain rfl := Host.Outcome.next.inj ht
    exact h.blockCleared rfl
  | read r =>
    obtain rfl := Host.Outcome.next.inj ht
    exact h.afterLook r
  | connect b =>
    obtain rfl := performConnect_inv ht
    exact h.afterConnect b
  | send b =>
    obtain rfl := Host.Outcome.next.inj ht
    exact h.afterSend b (sendFault_eq_none s hf).2
  | receive answer =>
    obtain ⟨rfl, hlen⟩ := performReceive_inv answer ht
    obtain ⟨hsent, hexp⟩ := receiveFault_eq_none t hf
    exact h.afterReceive hl hk answer hsent hexp hlen
  | disconnect =>
    obtain rfl := Host.Outcome.next.inj ht
    exact h.afterDisconnect
  | consume r q =>
    obtain rfl := Host.Outcome.next.inj ht
    exact h.afterLook r

/-- The records after a step are true of the block after it. -/
theorem step_keeps_recordsTrue (h : BlockInv s) (ht : step s = .next t) : RecordsTrue t t.records := by
  obtain ⟨-, rfl⟩ | ⟨a, rest, u, -, hf, hu, rfl⟩ := step_inv s t ht
  · exact h.records
  · obtain ⟨hl, hk⟩ := wellKept_closed.setHost s rest s.records ⟨h.legal, h.kept⟩
    have hrec : RecordsTrue (s.setProgram rest) s.records := h.records.congr rfl rfl rfl rfl
    have hafter := recordsTrue_after hl hk hrec a ((contractFault_setProgram s a rest).trans hf) hu
    rw [State.recorded_records, performAction_records a hu]
    exact hafter.congr rfl rfl rfl rfl

/-- A host that has done nothing claims nothing of a block without a frame. -/
theorem recordsTrue_initial (h : s.txLen = 0) : RecordsTrue s Records.initial where
  frame_absent := by simp [h, Records.initial]
  reply_length bs hb := by cases hb
  reply_answers i bs hr := by cases hr
  decodable_length hd := by cases hd
  loaded_decodable hld := absurd rfl hld
  loaded_length i hi := by cases hi
  result_groups i hi := by cases hi

end Sys2Proof.Machine

namespace Sys2Proof.Claims

open Sys2Proof.Machine

/-- Settles O44: every write of the block keeps its contents, and every action keeps the records true. -/
theorem everyStepKeepsInvariant : Obligations.EveryStepKeepsInvariant := by
  intro s t h ht
  obtain ⟨hlegal, hkept⟩ := wellKept_closed.step ⟨h.legal, h.kept⟩ ht
  exact ⟨hlegal, hkept, step_keeps_recordsTrue h ht⟩

/-- Settles O45: the reset state is a cleared state, with the records of a host that has done nothing. -/
theorem resetSatisfiesInvariant : Obligations.ResetSatisfiesInvariant :=
  ⟨legalValues_cleared State.reset, wellKept_cleared State.reset, recordsTrue_initial rfl⟩

end Sys2Proof.Claims
end

section
/-! PROOFS. One step around an exchange (rules R34, R41, R153): what lets an issued operation run, the session, and a write
or a read that fails (assumptions 8 and 13). -/

namespace Sys2Proof.Machine

open Sys2Proof.Claims

variable {s u : State} {c : Records} {i : Instr} {rest : List HostAction}

/-! ## Operations that run -/

/-- Every operation completes in a state with a legal `RXLEN` (rule R143). -/
theorem exec_completes (i : Instr) (h : s.rxLen.toNat ≤ 18) : ∃ t, exec i s = .next t := by
  obtain rfl | ⟨arg, rfl⟩ | ⟨g, rfl⟩ | ⟨d, hd, rfl⟩ | hb := instr_classes i
  · exact ⟨_, rfl⟩
  · exact ⟨_, rfl⟩
  · exact ⟨_, execChk_eq_next g s h⟩
  · exact ⟨_, exec_decoder s d hd⟩
  · obtain ⟨bs, n, k, e, -, hop⟩ := exec_storesFrame i hb
    exact ⟨_, hop s⟩

theorem decodeLength_of_buildsFrame (h : i.buildsFrame = true) : decodeLength i = none := by
  cases i with
  | dec3 | dec6 | dec18 => exact Bool.noConfusion h
  | _ => rfl

theorem ne_clr_of_buildsFrame (h : i.buildsFrame = true) : i ≠ .clr := by
  rintro rfl
  exact Bool.noConfusion h

/-- The decode operations decode 3, 6 and 18 bytes, one group being three (rules R101 to R103). -/
theorem decodeLength_decoder (d : Instr × Nat) (hd : d ∈ decoders) : decodeLength d.1 = some (3 * d.2) := by
  obtain rfl | rfl | rfl := (mem_decoders_iff d).mp hd <;> rfl

theorem overwritesFrame_decoder (d : Instr × Nat) (hd : d ∈ decoders) : overwritesFrame d.1 = false := by
  obtain rfl | rfl | rfl := (mem_decoders_iff d).mp hd <;> rfl

/-- An issued operation that breaks no duty and completes, as a step. -/
theorem step_issue_of_exec (opsel : Byte) (arg : Word) (hp : s.program = .issue opsel arg :: rest)
    (hd : decodeIssue opsel arg = .ok i) (hok : s.records.bound = false ∨ s.records.issueFault i s = none)
    (hu : exec i (s.setProgram rest) = .next u) : step s = .next (u.setRecords (s.records.afterIssue i u)) := by
  rw [step_eq_next s rest _ u hp (contractFault_issue_eq_none s i opsel arg hd hok)
    ((performAction_issue _ i opsel arg hd).trans hu), recorded_issue (s.setProgram rest) i u opsel arg hd hu]
  rfl

/-- An operation that is no decode breaks no duty unless it overwrites a frame to be taken (rule R153 (c)). -/
theorem Records.issueFault_of_not_decode (hi : decodeLength i = none) (hclr : i ≠ .clr)
    (hf : i.buildsFrame = true → c.frame ≠ .untaken) : c.issueFault i s = none := by
  refine (Records.issueFault_eq_none s c i).mpr ⟨fun ⟨ho, huntaken⟩ => ?_, fun n hn => ?_⟩
  · simp only [overwritesFrame, Bool.or_eq_true, decide_eq_true_iff] at ho
    exact hf (ho.resolve_right hclr) huntaken
  · rw [hi] at hn
    cases hn

/-- A decode breaks no duty when bytes of its length stand to be decoded (rule R153 (d)). -/
theorem Records.issueFault_of_decode (d : Instr × Nat) (hd : d ∈ decoders) (hdec : c.decodable = true)
    (hforbid : c.forbidsDecode (3 * d.2) s = false) (hlen : s.rxLen.toNat = 3 * d.2) : c.issueFault d.1 s = none := by
  refine (Records.issueFault_eq_none s c d.1).mpr ⟨fun ⟨ho, _⟩ => ?_, fun n hn => ?_⟩
  · rw [overwritesFrame_decoder d hd] at ho
    cases ho
  · rw [decodeLength_decoder d hd] at hn
    obtain rfl := Option.some.inj hn
    exact ⟨hdec, hforbid, hlen⟩

/-- A decode that a failure rules out is a fault (rule R153 (d), rule R41). -/
theorem Records.issueFault_of_forbidden (d : Instr × Nat) (hd : d ∈ decoders)
    (hforbid : c.forbidsDecode (3 * d.2) s = true) : c.issueFault d.1 s = some .decodeOutOfTurn := by
  simp [Records.issueFault, overwritesFrame_decoder d hd, decodeLength_decoder d hd, hforbid]

/-- After an encode operation the frame's record is that of the frame just built (rule R153 (c)). -/
theorem Records.afterIssue_frame_of_buildsFrame (hb : i.buildsFrame = true) :
    (c.afterIssue i u).frame = newFrameUse u := by
  rw [Records.afterIssue_eq c i u (ne_clr_of_buildsFrame hb)]
  exact if_pos hb

/-- No operation but `CLR` makes the bytes loaded ones that may not be decoded (rule R37). -/
theorem Records.afterIssue_decodable (hclr : i ≠ .clr) : (c.afterIssue i u).decodable = c.decodable := by
  rw [Records.afterIssue_eq c i u hclr]

/-- A frame just built is of an exchange in which nothing has failed. -/
theorem newFrameUse_ne_failed (u : State) : newFrameUse u ≠ .writeFailed ∧ newFrameUse u ≠ .readFailed := by
  unfold newFrameUse
  split <;> simp

/-! ## The session (rule R41) -/

theorem step_connect (b : Bool) (hp : s.program = .connect b :: rest) (hc : s.records.connected = false) :
    step s = .next ((s.setProgram rest).setRecords (s.records.afterConnect b)) :=
  step_eq_next s rest (.connect b) _ hp rfl (if_pos hc)

theorem step_connect_twice (b : Bool) (hp : s.program = .connect b :: rest) (hc : s.records.connected = true) :
    step s = .refused .secondHost := by
  have hperform : performConnect (s.setProgram rest) = .refused .secondHost := if_neg (by simp [hc])
  rw [step_of_no_fault s rest _ hp rfl, performAction, hperform, keepRecords]

theorem step_disconnect (hp : s.program = .disconnect :: rest) (hc : s.records.connected = true) :
    step s = .next ((s.setProgram rest).setRecords s.records.afterDisconnect) :=
  step_eq_next s rest .disconnect _ hp (if_neg (by simp [hc])) rfl

/-- A read of the transport that fails, when a response is due. -/
theorem step_receive_none (hp : s.program = .receive none :: rest) (hc : s.records.connected = true)
    (hsent : s.records.frame = .sent) (hexp : s.expLen.toNat ≠ 0) :
    step s = .next ((s.setProgram rest).setRecords { s.records with frame := .readFailed }) :=
  step_eq_next s rest (.receive none) _ hp ((receiveFault_of_connected s hc).trans (if_pos ⟨hsent, hexp⟩)) rfl

end Sys2Proof.Machine

namespace Sys2Proof.Claims

open Sys2Proof.Machine

/-- Settles O54: opening is refused where there is a handle, and closing is a fault where there is none. -/
theorem oneSessionAtATime : Obligations.OneSessionAtATime := by
  intro s rest
  refine ⟨fun b hp => ⟨step_connect b hp, step_connect_twice b hp⟩, fun hp => ⟨fun hc => ?unconnected, fun hc => ?closes⟩⟩
  case unconnected => exact step_of_fault s rest .disconnect _ hp (if_pos hc)
  case closes => exact ⟨_, step_disconnect hp hc, rfl⟩

/-- Settles O57: a failure is a record of the frame alone, which bars reads and decodes, and which the next frame built, or a
load after a failed write, replaces. -/
theorem failedExchangeIsNotDecoded : Obligations.FailedExchangeIsNotDecoded := by
  intro s rest
  refine ⟨fun hc => ⟨fun hp hn hu hf => ?write, fun hp => step_receive_none hp hc, fun hfailed answer hp => ?again⟩,
    fun hb => ⟨fun d hd opsel arg hp hdec hfailed => ?decode, fun hfailed opsel arg i hp hdec hbuilds => ?encode,
      fun bs t hf hp ht => ?load⟩⟩
  case write => exact ((frameIsSentOnce s rest false hp hn).2 hc hu).1 hf
  case again =>
    refine step_of_fault s rest _ _ hp ((receiveFault_of_connected s hc).trans (if_neg fun ⟨hsent, _⟩ => ?_))
    rw [hsent] at hfailed
    simp at hfailed
  case decode =>
    exact step_of_fault s rest _ _ hp ((contractFault_issue s d.1 opsel arg hb hdec).trans
      (Records.issueFault_of_forbidden d hd ((Records.forbidsDecode_iff s _ _).mpr hfailed)))
  case encode =>
    have hok : s.records.issueFault i s = none :=
      Records.issueFault_of_not_decode (decodeLength_of_buildsFrame hbuilds) (ne_clr_of_buildsFrame hbuilds)
        fun _ huntaken => by simp [huntaken] at hfailed
    obtain ⟨bytes, n, k, e, -, hop⟩ := exec_storesFrame i hbuilds
    have hu := hop (s.setProgram rest)
    refine ⟨_, _, hu, step_issue_of_exec opsel arg hp hdec (.inr hok) hu, ?_⟩
    rw [Records.afterIssue_frame_of_buildsFrame hbuilds]
    exact newFrameUse_ne_failed _
  case load =>
    obtain ⟨hp', -⟩ | ⟨a, rest', u, hp', -, hu, rfl⟩ := step_inv s t ht
    · cases hp.symm.trans hp'
    · obtain ⟨rfl, rfl⟩ := List.cons.inj (hp.symm.trans hp')
      rw [State.recorded_records, performAction_records _ hu]
      exact if_pos hf

end Sys2Proof.Claims
end

section
/-! PROOFS. What stops the machine (rules R143, R153; assumptions 5, 8 and 13): each check of the host's duties passes
exactly when the action is none of the breaches, and an action that passes is performed to its end. -/

namespace Sys2Proof.Machine

open Sys2Proof.Claims

variable {s : State} {i : Instr} {rest : List HostAction}

/-! ## The checks, whole -/

theorem Records.loadFault_eq_none (c : Records) (bs : List Byte) :
    c.loadFault bs = none ↔ c.reply.bytes = some bs ∨ bs.length = 6 := by
  rw [← Reply.mayLoad_iff]
  simp [Records.loadFault]

/-- The frame is there, there is a handle, the error was checked, and the frame was not given away before. -/
theorem sendFault_eq_none_iff : sendFault s = none ↔
    s.txLen.toNat ≠ 0 ∧ s.records.connected = true ∧ .frame ∉ s.records.unchecked ∧ s.records.frame = .untaken := by
  unfold sendFault
  split_ifs <;> simp_all

theorem receiveFault_eq_none_iff : receiveFault s = none ↔
    s.records.connected = true ∧ s.records.frame = .sent ∧ s.expLen.toNat ≠ 0 := by
  unfold receiveFault
  split_ifs <;> simp_all

/-- A register that is part of an output is used when the block shows data in it and the records allow its use. -/
theorem consumeFault_eq_none_iff (r : HostReg) (q : Instr) (o : Output) (ho : r.output = some o) :
    consumeFault r q s = none ↔ r.emptyFault s = none ∧ s.records.useFault r o q = none := by
  unfold consumeFault
  rw [ho]
  cases r.emptyFault s <;> simp

theorem Records.useFault_eq_none (c : Records) (r : HostReg) (o : Output) (q : Instr) : c.useFault r o q = none ↔
    o ∉ c.unchecked ∧ (o = .result → c.result = some q ∧ r.answers q = true) := by
  unfold Records.useFault
  split_ifs <;> simp_all

theorem HostReg.emptyFault_of_result (r : HostReg) (hr : r.output = some .result) :
    r.emptyFault s = none ↔ s.valid = true ∧ r.carried s = true := by
  unfold HostReg.emptyFault
  rw [hr]
  cases s.valid <;> simp

theorem HostReg.emptyFault_of_frame (r : HostReg) (hr : r.output = some .frame) :
    r.emptyFault s = none ↔ s.txLen.toNat ≠ 0 := by
  unfold HostReg.emptyFault
  rw [hr]
  simp

theorem HostReg.emptyFault_of_comparison (r : HostReg) (hr : r.output = some .comparison) : r.emptyFault s = none := by
  unfold HostReg.emptyFault
  rw [hr]

/-! ## The breaches, action by action -/

/-- Rule R153 (c), (d) binds from the host's first `open` on, and speaks of operations. -/
theorem bound_of_hostBreach_issue (opsel : Byte) (arg : Word) (h : HostBreach s (.issue opsel arg)) :
    s.records.bound = true ∧ ∃ i, decodeIssue opsel arg = .ok i := by
  cases h with
  | overwritesFrame _ _ i hb hd => exact ⟨hb, i, hd⟩
  | decodesNoReply _ _ i _ hb hd => exact ⟨hb, i, hd⟩
  | decodesAfterFailedRead _ _ i _ hb hd => exact ⟨hb, i, hd⟩
  | decodesFailedExchange _ _ i _ hb hd => exact ⟨hb, i, hd⟩

/-- The fault of an issued operation is one of the four breaches of rule R153 (c), (d). -/
theorem not_hostBreach_issue_iff (opsel : Byte) (arg : Word) (hb : s.records.bound = true)
    (hd : decodeIssue opsel arg = .ok i) :
    ¬ HostBreach s (.issue opsel arg) ↔ s.records.issueFault i s = none := by
  rw [Records.issueFault_eq_none]
  constructor
  · intro h
    refine ⟨fun ⟨ho, hf⟩ => h (.overwritesFrame _ _ i hb hd (by simpa [Machine.overwritesFrame] using ho) hf),
      fun n hn => ⟨?decodable, ?forbidden, ?length⟩⟩
    case decodable =>
      by_contra hdec
      exact h (.decodesNoReply _ _ i n hb hd hn (.inl (by simpa using hdec)))
    case forbidden =>
      by_contra hforbid
      obtain hf | ⟨hf, hexp⟩ := (Records.forbidsDecode_iff s _ n).mp (by simpa using hforbid)
      · exact h (.decodesAfterFailedRead _ _ i n hb hd hn hf)
      · exact h (.decodesFailedExchange _ _ i n hb hd hn hf hexp)
    case length =>
      by_contra hlen
      exact h (.decodesNoReply _ _ i n hb hd hn (.inr hlen))
  · rintro ⟨hframe, hdecode⟩ h
    have same : ∀ j, decodeIssue opsel arg = .ok j → j = i := fun j hj => Except.ok.inj (hj.symm.trans hd)
    have allowed : ∀ n, decodeLength i = some n →
        ¬ (s.records.frame = .readFailed ∨ s.records.frame = .writeFailed ∧ s.expLen.toNat = n) := by
      intro n hn hf
      obtain ⟨-, hforbid, -⟩ := hdecode n hn
      exact Bool.noConfusion (hforbid.symm.trans ((Records.forbidsDecode_iff s _ n).mpr hf))
    cases h with
    | overwritesFrame _ _ j _ hj ho hf =>
      obtain rfl := same j hj
      exact hframe ⟨by simpa [Machine.overwritesFrame] using ho, hf⟩
    | decodesNoReply _ _ j n _ hj hn hno =>
      obtain rfl := same j hj
      obtain ⟨hdec, -, hlen⟩ := hdecode n hn
      exact hno.elim (fun hfalse => by simp [hdec] at hfalse) (fun hne => hne hlen)
    | decodesAfterFailedRead _ _ j n _ hj hn hf =>
      obtain rfl := same j hj
      exact allowed n hn (.inl hf)
    | decodesFailedExchange _ _ j n _ hj hn hf hexp =>
      obtain rfl := same j hj
      exact allowed n hn (.inr ⟨hf, hexp⟩)

theorem not_hostBreach_loadRx_iff (bs : List Byte) : ¬ HostBreach s (.loadRx bs) ↔
    bs.length ≤ 18 ∧ contractFault (.loadRx bs) s = none := by
  constructor
  · intro h
    have hlen : bs.length ≤ 18 := by
      by_contra hlong
      exact h (.loadsTooMuch bs (by omega))
    refine ⟨hlen, ?_⟩
    cases hb : s.records.bound with
    | false => exact contractFault_loadRx_of_not_bound s bs hb
    | true =>
      rw [contractFault_loadRx s bs hb hlen, Records.loadFault_eq_none]
      by_contra hother
      obtain ⟨hreply, h6⟩ := not_or.mp hother
      exact h (.loadsOtherBytes bs hb hlen hreply h6)
  · rintro ⟨hlen, hf⟩ h
    cases h with
    | loadsOtherBytes _ hb _ hreply h6 =>
      rw [contractFault_loadRx s bs hb hlen, Records.loadFault_eq_none] at hf
      exact hf.elim hreply h6
    | loadsTooMuch _ hlong => omega

theorem not_hostBreach_send_iff (b : Bool) : ¬ HostBreach s (.send b) ↔ sendFault s = none := by
  rw [sendFault_eq_none_iff]
  constructor
  · intro h
    refine ⟨fun hn => h (.sendsNothing b hn), ?_, fun hu => h (.sendsUnchecked b hu), ?_⟩
    · by_contra hc
      exact h (.sendsUnconnected b (by simpa using hc))
    · by_contra hf
      exact h (.sendsAgain b hf)
  · rintro ⟨hn, hc, hu, hf⟩ h
    cases h with
    | sendsNothing _ hempty => exact hn hempty
    | sendsUnchecked _ hmem => exact hu hmem
    | sendsAgain _ htaken => exact htaken hf
    | sendsUnconnected _ hno => simp [hc] at hno

theorem not_hostBreach_receive_iff (answer : Option (List Byte)) : ¬ HostBreach s (.receive answer) ↔
    receiveFault s = none ∧ ∀ bs, answer = some bs → bs.length = s.expLen.toNat := by
  rw [receiveFault_eq_none_iff]
  constructor
  · intro h
    refine ⟨⟨?_, ?_, fun hexp => h (.receivesNothingDue _ (.inr hexp))⟩, ?_⟩
    · by_contra hc
      exact h (.receivesUnconnected _ (by simpa using hc))
    · by_contra hf
      exact h (.receivesNothingDue _ (.inl hf))
    · rintro bs rfl
      by_contra hlen
      exact h (.receivesOtherLength bs hlen)
  · rintro ⟨⟨hc, hf, hexp⟩, hlen⟩ h
    cases h with
    | receivesUnconnected _ hno => simp [hc] at hno
    | receivesNothingDue _ hnot => exact hnot.elim (fun hne => hne hf) hexp
    | receivesOtherLength bs hne => exact hne (hlen bs rfl)

theorem not_hostBreach_disconnect_iff : ¬ HostBreach s .disconnect ↔ s.records.connected = true := by
  constructor
  · intro h
    by_contra hc
    exact h (.disconnectsUnconnected (by simpa using hc))
  · intro hc h
    cases h with
    | disconnectsUnconnected hno => simp [hc] at hno

theorem not_hostBreach_connect_iff (b : Bool) : ¬ HostBreach s (.connect b) ↔ s.records.connected = false := by
  constructor
  · intro h
    by_contra hc
    exact h (.connectsTwice b (by simpa using hc))
  · intro hc h
    cases h with
    | connectsTwice _ hyes => simp [hc] at hyes

/-- A view of a standing result carries nothing exactly where rule R121 or rule R13 is broken. -/
theorem HostReg.carried_of_not_hostBreach (r : HostReg) (q : Instr) (hv : s.valid = true)
    (h : ¬ HostBreach s (.consume r q)) : r.carried s = true := by
  cases r with
  | f j =>
    by_contra hno
    exact h (.usesNoMeasurement j q (by simpa [HostReg.carried, hv] using hno))
  | major | minor | ready =>
    by_contra hno
    exact h (.usesNoWordView _ q (by simp) (by simpa [HostReg.carried, hv] using hno))
  | w g => exact hv
  | _ => rfl

/-- The converse, for the two breaches that speak of what a view carries. -/
theorem not_carried_of_measurement (j : Fin 3) (h : ¬ (s.ngrp.toNat = 6 ∨ s.ngrp.toNat = 2 ∧ j = 0)) :
    ¬ (HostReg.f j).carried s = true := by
  simp only [HostReg.carried, Bool.and_eq_true, Bool.or_eq_true, decide_eq_true_iff]
  exact fun hcarried => h hcarried.2

theorem not_carried_of_word_view (r : HostReg) (hr : r = .major ∨ r = .minor ∨ r = .ready) (h : s.ngrp.toNat ≠ 1) :
    r.output = some .result ∧ ¬ r.carried s = true := by
  obtain rfl | rfl | rfl := hr <;> simp [HostReg.output, HostReg.carried, h]

/-- The fault of a use is one of the six breaches of rules R121, R13, R152 and R153 (e), (f). -/
theorem not_hostBreach_consume_iff (r : HostReg) (q : Instr) :
    ¬ HostBreach s (.consume r q) ↔ consumeFault r q s = none := by
  constructor
  · intro h
    cases ho : r.output with
    | none => exact consumeFault_of_no_output s r q ho
    | some o =>
      have hu : o ∉ s.records.unchecked := fun hmem => h (.usesUnchecked r q o ho hmem)
      rw [consumeFault_eq_none_iff r q o ho, Records.useFault_eq_none]
      cases o with
      | frame => exact ⟨(r.emptyFault_of_frame ho).mpr fun hn => h (.usesNoFrame r q ho hn), hu, by simp⟩
      | comparison => exact ⟨r.emptyFault_of_comparison ho, hu, by simp⟩
      | result =>
        have hv : s.valid = true := by
          by_contra hno
          exact h (.usesNoResult r q ho (by simpa using hno))
        refine ⟨(r.emptyFault_of_result ho).mpr ⟨hv, r.carried_of_not_hostBreach q hv h⟩, hu, fun _ => ⟨?_, ?_⟩⟩
        · by_contra hother
          exact h (.usesOtherAnswer r q ho (.inl hother))
        · by_contra hother
          exact h (.usesOtherAnswer r q ho (.inr (by simpa using hother)))
  · intro hf h
    have passes := fun o ho => (consumeFault_eq_none_iff (s := s) r q o ho).mp hf
    have shown := fun ho => (r.emptyFault_of_result ho).mp (passes .result ho).1
    cases h with
    | usesNoResult _ _ ho hv => simp [(shown ho).1] at hv
    | usesNoMeasurement j _ hno => exact not_carried_of_measurement j hno (shown rfl).2
    | usesNoWordView _ _ hr hn =>
      obtain ⟨ho, hno⟩ := not_carried_of_word_view r hr hn
      exact hno (shown ho).2
    | usesNoFrame _ _ ho hn => exact (r.emptyFault_of_frame ho).mp (passes .frame ho).1 hn
    | usesOtherAnswer _ _ ho hother =>
      obtain ⟨hresult, hanswers⟩ := ((Records.useFault_eq_none _ r _ q).mp (passes .result ho).2).2 rfl
      exact hother.elim (fun hne => hne hresult) (fun hno => by simp [hanswers] at hno)
    | usesUnchecked _ _ o ho hmem => exact ((Records.useFault_eq_none _ r o q).mp (passes o ho).2).1 hmem

/-! ## A step that goes on -/

/-- A step goes on exactly when its action breaks no duty and is performed to its end. -/
theorem completes_step_iff (a : HostAction) (hp : s.program = a :: rest) :
    completes (step s) ↔ contractFault a s = none ∧ completes (performAction a (s.setProgram rest)) := by
  constructor
  · rintro ⟨t, ht⟩
    obtain ⟨hp', -⟩ | ⟨a', rest', u, hp', hf, hu, -⟩ := step_inv s t ht
    · cases hp.symm.trans hp'
    · obtain ⟨rfl, rfl⟩ := List.cons.inj (hp.symm.trans hp')
      exact ⟨hf, u, hu⟩
  · rintro ⟨hf, u, hu⟩
    exact ⟨_, step_eq_next s rest a u hp hf hu⟩

/-- An issued operation breaks no duty exactly when it is no breach; what it does completes in any case. -/
theorem contractFault_issue_eq_none_iff (opsel : Byte) (arg : Word) :
    contractFault (.issue opsel arg) s = none ↔ ¬ HostBreach s (.issue opsel arg) := by
  cases hb : s.records.bound with
  | false =>
    refine iff_of_true (contractFault_issue_of_not_bound s opsel arg hb) fun h => ?_
    exact Bool.noConfusion (hb.symm.trans (bound_of_hostBreach_issue opsel arg h).1)
  | true =>
    cases hd : decodeIssue opsel arg with
    | ok i => rw [contractFault_issue s i opsel arg hb hd, not_hostBreach_issue_iff opsel arg hb hd]
    | error e =>
      refine iff_of_true (contractFault_undefined s opsel arg e hd) fun h => ?_
      obtain ⟨i, hi⟩ := (bound_of_hostBreach_issue opsel arg h).2
      cases hd.symm.trans hi

theorem completes_performAction_issue (opsel : Byte) (arg : Word) (h : s.rxLen.toNat ≤ 18) :
    completes (performAction (.issue opsel arg) s) := by
  cases hd : decodeIssue opsel arg with
  | ok i =>
    rw [performAction_issue s i opsel arg hd]
    exact exec_completes i h
  | error e => exact ⟨_, performAction_undefined s opsel arg e hd⟩

theorem completes_performLoadRx_iff (bs : List Byte) : completes (performLoadRx bs s) ↔ bs.length ≤ 18 :=
  ⟨fun ⟨_, ht⟩ => (performLoadRx_inv bs ht).1, fun h => ⟨_, performLoadRx_of_le s bs h⟩⟩

theorem completes_performConnect_iff : completes (performConnect s) ↔ s.records.connected = false := by
  unfold performConnect completes
  split <;> simp_all

/-- Where a response is due, a transport read of any other length is no answer (rule R41). -/
theorem completes_performReceive_iff (answer : Option (List Byte)) (hexp : s.expLen.toNat ≠ 0) :
    completes (performReceive answer s) ↔ ∀ bs, answer = some bs → bs.length = s.expLen.toNat := by
  refine ⟨fun ⟨_, ht⟩ => (performReceive_inv answer ht).2, fun h => ?_⟩
  cases answer with
  | none => exact ⟨_, rfl⟩
  | some bs => exact ⟨_, performReceive_of_answer s bs ((answersCommand_iff s bs).mpr ⟨hexp, h bs rfl⟩)⟩

/-- The packaged case split: in a legal state the step by an action goes on exactly when the action is no breach. -/
theorem completes_step_iff_not_hostBreach (hl : LegalValues s) (a : HostAction) (hp : s.program = a :: rest) :
    completes (step s) ↔ ¬ HostBreach s a := by
  rw [completes_step_iff a hp]
  cases a with
  | issue opsel arg =>
    rw [contractFault_issue_eq_none_iff]
    exact and_iff_left (completes_performAction_issue opsel arg hl.rxLen_legal)
  | loadRx bs =>
    rw [not_hostBreach_loadRx_iff, and_comm]
    exact and_congr_left fun _ => completes_performLoadRx_iff bs
  | reset => exact iff_of_true ⟨rfl, _, rfl⟩ nofun
  | read r => exact iff_of_true ⟨rfl, _, rfl⟩ nofun
  | connect b =>
    rw [not_hostBreach_connect_iff]
    exact (and_iff_right rfl).trans completes_performConnect_iff
  | send b =>
    rw [not_hostBreach_send_iff]
    exact and_iff_left ⟨_, rfl⟩
  | receive answer =>
    rw [not_hostBreach_receive_iff]
    exact and_congr_right fun hf => completes_performReceive_iff answer (receiveFault_eq_none s hf).2
  | disconnect =>
    rw [not_hostBreach_disconnect_iff]
    refine (and_iff_left ⟨_, rfl⟩).trans ?_
    simp [contractFault]
  | consume r q =>
    rw [not_hostBreach_consume_iff]
    exact and_iff_left ⟨_, rfl⟩

end Sys2Proof.Machine

namespace Sys2Proof.Claims

open Sys2Proof.Machine

/-- Settles O38: the step by each action, and waiting where there is none. -/
theorem onlyHostBreachesStopTheMachine : Obligations.OnlyHostBreachesStopTheMachine := by
  intro s hl
  cases hp : s.program with
  | nil => exact iff_of_true ⟨s, step_idle s hp⟩ fun a rest h => by cases h
  | cons a rest =>
    rw [completes_step_iff_not_hostBreach hl a hp]
    refine ⟨fun h b rest' hb => ?_, fun h => h a rest rfl⟩
    obtain ⟨rfl, -⟩ := List.cons.inj hb
    exact h

end Sys2Proof.Claims
end

section
/-! PROOFS. The bytes loaded are the bytes decoded (rules R18, R37, R100): `RX` holds them from the load on, whatever
operation but `CLR` follows, and the result of a decode is told by them alone. -/

namespace Sys2Proof.Machine

open Sys2Proof.Claims

variable {s t : State} {i : Instr} {bs : List Byte} {rest : List HostAction}

/-! ## The bytes in `RX` -/

/-- `RX` holds this sequence of bytes (rule R18). -/
structure HoldsBytes (s : State) (bs : List Byte) : Prop where
  length_eq : s.rxLen.toNat = bs.length
  byte_eq : ∀ a < bs.length, s.rx.read a = bs.getD a 0

theorem HoldsBytes.congr (h : HoldsBytes s bs) (hlen : t.rxLen = s.rxLen) (hrx : ∀ a, t.rx.read a = s.rx.read a) :
    HoldsBytes t bs :=
  ⟨hlen ▸ h.length_eq, fun a ha => (hrx a).trans (h.byte_eq a ha)⟩

theorem holdsBytes_loadedState (hwf : s.rx.wf = true) (hlen : bs.length ≤ 18) : HoldsBytes (loadedState bs s) bs :=
  ⟨loadedState_rxLen s bs hlen, fun a ha => (loadedState_rx_read s bs a hwf hlen).trans (if_pos (by omega))⟩

/-- No operation but `CLR` writes `RX` (rule R18). -/
theorem HoldsBytes.exec (h : HoldsBytes s bs) (hclr : i ≠ .clr) (ht : exec i s = .next t) : HoldsBytes t bs := by
  obtain ⟨-, -, -, -, -, hlen, hrx, -⟩ := eachItemHasItsWriters i s t ht hclr
  exact h.congr hlen hrx

theorem HoldsBytes.groupsIntact_iff (h : HoldsBytes s bs) (k : Nat) (hk : bs.length = 3 * k) :
    groupsIntact s k = true ↔ BytesIntact bs k := by
  rw [Machine.groupsIntact_iff]
  refine forall₂_congr fun g hg => ?_
  simp only [rxGroup, h.byte_eq (3 * g) (by omega), h.byte_eq (3 * g + 1) (by omega), h.byte_eq (3 * g + 2) (by omega)]

/-! ## The result of decoding them -/

/-- What the decode of `k` groups leaves when it reads exactly these bytes (rule R100). -/
structure ResultOfBytes (bs : List Byte) (k : Nat) (t : State) : Prop where
  passed : BytesIntact bs k → t.valid = true ∧ t.err = ErrorCode.none.code ∧
    ∀ g : Fin 6, g.val < k → t.w[g] = bs.getD (3 * g.val) 0 ++ bs.getD (3 * g.val + 1) 0
  failed : ¬ BytesIntact bs k → DecodeFailed t .checksumError

/-- The result is of the block's state; the host's fields are not the block's. -/
theorem ResultOfBytes.setHost {k : Nat} (h : ResultOfBytes bs k t) (p : List HostAction) (c : Records) :
    ResultOfBytes bs k ((t.setProgram p).setRecords c) :=
  ⟨h.passed, fun hbad => ⟨(h.failed hbad).words, (h.failed hbad).valid, (h.failed hbad).ngrp, (h.failed hbad).err⟩⟩

theorem decodeFail_decodeFailed (s : State) (e : ErrorCode) : DecodeFailed (decodeFail e s) e :=
  ⟨fun g => by simp, decodeFail_valid s e, by simp, decodeFail_err s e⟩

theorem HoldsBytes.decodedState (h : HoldsBytes s bs) (k : Nat) (hk : bs.length = 3 * k) :
    ResultOfBytes bs k (decodedState k s) := by
  have hlen : s.rxLen.toNat = 3 * k := h.length_eq.trans hk
  constructor
  · intro hgood
    rw [decodedState_of_intact s k hlen ((h.groupsIntact_iff k hk).mpr hgood)]
    refine ⟨decodeCommit_valid s k, decodeCommit_err s k, fun g hg => ?_⟩
    refine (decodedWords_getElem k s g.val g.isLt).trans ((if_pos hg).trans ?_)
    rw [rxWord, h.byte_eq _ (by omega), h.byte_eq _ (by omega)]
  · intro hbad
    rw [decodedState_of_corrupted s k hlen (mt (h.groupsIntact_iff k hk).mp hbad)]
    exact decodeFail_decodeFailed s _

/-! ## Loading and decoding as steps -/

/-- Three, six and eighteen bytes fit into `RX`. -/
theorem length_le_of_decoder (d : Instr × Nat) (hd : d ∈ decoders) (hk : bs.length = 3 * d.2) : bs.length ≤ 18 := by
  have := decoders_groups d hd
  omega

/-- A load that a host may make (rule R153 (d)), as a step: `RX` holds the bytes, and the record of them is kept. -/
theorem step_loads (hp : s.program = .loadRx bs :: rest) (hlen : bs.length ≤ 18) (hwf : s.rx.wf = true)
    (hmay : s.records.bound = true → s.records.reply.bytes = some bs ∨ bs.length = 6) :
    ∃ t, step s = .next t ∧ t.program = rest ∧ t.records = s.records.afterLoad bs ∧ HoldsBytes t bs := by
  have hf : contractFault (.loadRx bs) s = none := by
    cases hb : s.records.bound with
    | false => exact contractFault_loadRx_of_not_bound s bs hb
    | true =>
      rw [contractFault_loadRx s bs hb hlen]
      exact (Records.loadFault_eq_none _ bs).mpr (hmay hb)
  have hholds : HoldsBytes (loadedState bs (s.setProgram rest)) bs := holdsBytes_loadedState hwf hlen
  exact ⟨_, step_loadRx s rest bs hp hlen hf, rfl, rfl, hholds.congr rfl fun _ => rfl⟩

/-- A decode of the bytes held, as a step; its result answers what they answer (rule R153 (e)). -/
theorem step_decodes (d : Instr × Nat) (hd : d ∈ decoders) (h : HoldsBytes s bs) (hk : bs.length = 3 * d.2)
    (hp : s.program = .issue (encode d.1).1 (encode d.1).2 :: rest)
    (hmay : s.records.bound = true → s.records.decodable = true ∧ s.records.forbidsDecode (3 * d.2) s = false) :
    ∃ t, step s = .next t ∧ t.program = rest ∧ ResultOfBytes bs d.2 t ∧ t.records.result = s.records.loaded ∧
      t.records.last = some .result := by
  have hok : s.records.bound = false ∨ s.records.issueFault d.1 s = none := by
    cases hb : s.records.bound with
    | false => exact .inl rfl
    | true =>
      obtain ⟨hdec, hforbid⟩ := hmay hb
      exact .inr (Records.issueFault_of_decode d hd hdec hforbid (h.length_eq.trans hk))
  have hheld : HoldsBytes (s.setProgram rest) bs := h.congr rfl fun _ => rfl
  refine ⟨_, step_issue_of_exec _ _ hp (decodeIssue_encode d.1) hok (exec_decoder _ d hd), ?program,
    (hheld.decodedState d.2 hk).setHost (decodedState d.2 (s.setProgram rest)).program _, ?answers⟩
  case program => exact (decodedState_keeps (s.setProgram rest) d.2).program
  case answers => obtain rfl | rfl | rfl := (mem_decoders_iff d).mp hd <;> exact ⟨rfl, rfl⟩

/-! ## Step after step (rule R37) -/

theorem afterSteps_one (h : step s = .next t) : afterSteps 1 s = .next t := by
  rw [afterSteps, h]
  rfl

/-- The steps after the first `m` start where those ended. -/
theorem afterSteps_add (m n : Nat) :
    ∀ {s : State}, afterSteps m s = .next t → afterSteps (m + n) s = afterSteps n t := by
  induction m with
  | zero =>
    intro s h
    obtain rfl := Host.Outcome.next.inj h
    rw [Nat.zero_add]
  | succ m ih =>
    intro s h
    rw [Nat.succ_add]
    rw [afterSteps] at h ⊢
    cases hs : step s with
    | next u =>
      rw [hs] at h
      exact ih h
    | fault f => rw [hs] at h; cases h
    | refused x => rw [hs] at h; cases h

/-- An operation that is neither a decode nor `CLR`, and overwrites no frame to be taken, as a step: it leaves the bytes
held. -/
theorem step_operation (hi : decodeLength i = none) (hclr : i ≠ .clr) (h : HoldsBytes s bs) (hlen : bs.length ≤ 18)
    (hp : s.program = .issue (encode i).1 (encode i).2 :: rest)
    (htaken : s.records.bound = true → i.buildsFrame = true → s.records.frame ≠ .untaken) :
    ∃ u, step s = .next (u.setRecords (s.records.afterIssue i u)) ∧ u.program = rest ∧ HoldsBytes u bs := by
  have hheld : HoldsBytes (s.setProgram rest) bs := h.congr rfl fun _ => rfl
  have hok : s.records.bound = false ∨ s.records.issueFault i s = none := by
    cases hb : s.records.bound with
    | false => exact .inl rfl
    | true => exact .inr (Records.issueFault_of_not_decode hi hclr (htaken hb))
  obtain ⟨u, hu⟩ := exec_completes i (hheld.length_eq ▸ hlen)
  exact ⟨u, step_issue_of_exec _ _ hp (decodeIssue_encode i) hok hu, exec_program _ u i hu, hheld.exec hclr hu⟩

/-- After it the bytes may still be decoded: it either begins another exchange, or leaves one in which nothing failed (rule
R37, rule R41). -/
theorem Records.mayDecode_afterIssue {c : Records} (u : State) (n : Nat) (hclr : i ≠ .clr) (hdec : c.decodable = true)
    (hfailed : i.buildsFrame = false → c.frame ≠ .writeFailed ∧ c.frame ≠ .readFailed) :
    (c.afterIssue i u).decodable = true ∧ (c.afterIssue i u).forbidsDecode n t = false := by
  have hframe : (c.afterIssue i u).frame ≠ .writeFailed ∧ (c.afterIssue i u).frame ≠ .readFailed := by
    cases hbuilds : i.buildsFrame with
    | true =>
      rw [Records.afterIssue_frame_of_buildsFrame hbuilds]
      exact newFrameUse_ne_failed u
    | false =>
      rw [Records.afterIssue_eq c i u hclr]
      simpa [hbuilds] using hfailed hbuilds
  refine ⟨(Records.afterIssue_decodable hclr).trans hdec, ?_⟩
  rw [← Bool.not_eq_true, Records.forbidsDecode_iff]
  exact fun hforbid => hforbid.elim hframe.2 fun hw => hframe.1 hw.1

/-- Such an operation and the decode after it: the bytes held are what the decode reads, when neither breaks a duty (rule
R153 (c), (d)). -/
theorem afterSteps_operation_decode (d : Instr × Nat) (hd : d ∈ decoders) (hi : decodeLength i = none) (hclr : i ≠ .clr)
    (h : HoldsBytes s bs) (hk : bs.length = 3 * d.2)
    (hp : s.program = .issue (encode i).1 (encode i).2 :: .issue (encode d.1).1 (encode d.1).2 :: rest)
    (hmay : s.records.bound = true → s.records.decodable = true ∧
      (i.buildsFrame = true → s.records.frame ≠ .untaken) ∧
      (i.buildsFrame = false → s.records.frame ≠ .writeFailed ∧ s.records.frame ≠ .readFailed)) :
    ∃ t, afterSteps 2 s = .next t ∧ t.program = rest ∧ ResultOfBytes bs d.2 t := by
  obtain ⟨u, hstep, hprogram, hholds⟩ :=
    step_operation hi hclr h (length_le_of_decoder d hd hk) hp fun hb => (hmay hb).2.1
  have hheld : HoldsBytes (u.setRecords (s.records.afterIssue i u)) bs := hholds.congr rfl fun _ => rfl
  obtain ⟨t, ht, hrest, hresult, -⟩ := step_decodes d hd hheld hk hprogram fun hb => by
    obtain ⟨hdec, -, hfailed⟩ := hmay ((Records.afterIssue_bound s.records i u).symm.trans hb)
    exact Records.mayDecode_afterIssue u _ hclr hdec hfailed
  exact ⟨t, (afterSteps_add 1 1 (afterSteps_one hstep)).trans (afterSteps_one ht), hrest, hresult⟩

/-! ## The float views (rule R115) -/

/-- A float view of four bytes one after another. -/
theorem append_two_words (a b c d : Byte) : (a ++ b) ++ (c ++ d) = a ++ b ++ c ++ d :=
  (BitVec.append_assoc (x₁ := a ++ b) (x₂ := c) (x₃ := d)).symm

end Sys2Proof.Machine

namespace Sys2Proof.Claims

open Sys2Proof.Machine

/-- Settles O29: the decode of the bytes just loaded, and each float view as two of its words. -/
theorem loadedMeasurementIsDelivered : Obligations.LoadedMeasurementIsDelivered := by
  intro s bs hwf hlen hintact
  have hresult := (holdsBytes_loadedState (s := s) hwf (by omega : bs.length ≤ 18)).decodedState 6 hlen
  obtain ⟨hvalid, herr, hwords⟩ := hresult.passed hintact
  refine ⟨_, _, performLoadRx_of_le s bs (by omega), exec_decoder _ (.dec18, 6) (by simp [decoders]), hvalid, herr,
    fun j => ?_⟩
  have hj := j.isLt
  have hhigh := hwords ⟨2 * j.val, by omega⟩ (by simp; omega)
  have hlow := hwords ⟨2 * j.val + 1, by omega⟩ (by simp; omega)
  simp only [Fin.getElem_fin, show 3 * (2 * j.val) = 6 * j.val by omega,
    show 3 * (2 * j.val + 1) = 6 * j.val + 3 by omega] at hhigh hlow
  rw [State.f, hhigh, hlow]
  exact append_two_words _ _ _ _

/-- Settles O56: the load, then the operation between and the decode. -/
theorem nextDecodeReadsLoadedBytes : Obligations.NextDecodeReadsLoadedBytes := by
  intro d hd i bs s rest hi hclr hk hwf hduty hp
  obtain ⟨t, ht, hprogram, hrecords, hholds⟩ :=
    step_loads hp (length_le_of_decoder d hd hk) hwf fun hb => (hduty hb).1
  have hmay : t.records.bound = true → t.records.decodable = true ∧
      (i.buildsFrame = true → t.records.frame ≠ .untaken) ∧
      (i.buildsFrame = false → t.records.frame ≠ .writeFailed ∧ t.records.frame ≠ .readFailed) := by
    rw [hrecords, Records.afterLoad_bound, Records.afterLoad_decodable, Records.afterLoad_frame]
    intro hb
    obtain ⟨hload, htaken, hread⟩ := hduty hb
    refine ⟨(Reply.mayLoad_iff _ bs).mpr hload, fun hbuilds => ?_, fun hno => ?_⟩
    · split
      · simp
      · exact htaken hbuilds
    · split
      · simp
      · next hwrite => exact ⟨hwrite, hread hno⟩
  obtain ⟨v, hv, hrest, hresult⟩ := afterSteps_operation_decode d hd hi hclr hholds hk hprogram hmay
  exact ⟨v, (afterSteps_add 1 2 (afterSteps_one ht)).trans hv, hrest, hresult.passed, hresult.failed⟩

end Sys2Proof.Claims
end

section
/-! PROOFS. Exchanges by the contract (rules R37, R41, R153): a command with a response is built and sent, its read fails or
gives the reply, and the reply is loaded, decoded, checked and used. -/

namespace Sys2Proof.Machine

open Sys2Proof.Claims

variable {s t : State} {i : Instr} {bs : List Byte} {rest : List HostAction}

/-! ## The commands with a response (rule R50) -/

/-- In every state the operation builds the two-byte frame that parses as itself, with its response length in `EXPLEN`, and
raises nothing: the form of the read commands in Table E-4. -/
def BuildsReadCommand (i : Instr) : Prop :=
  ∃ (bytes : List Byte) (k : BitVec 5), 2 ≤ bytes.length ∧ parseFrame (bytes.take 2) = .ok i ∧ k.toNat = responseLength i ∧
    ∀ s, exec i s = .next ((s.setFrame (s.tx.writeBytes 0 bytes) 2 k).setErr .none)

theorem buildsReadCommand_of_emit2 (reg : Word) (k : BitVec 5) (hop : exec i = emit2 reg k)
    (hparse : parseFrame [hiByte reg, loByte reg] = .ok i) (hk : k.toNat = responseLength i) : BuildsReadCommand i :=
  ⟨[hiByte reg, loByte reg, 0, 0, 0], k, by simp, hparse, hk, fun s => by rw [hop, emit2_eq_next]⟩

theorem buildsReadCommand (h : responseLength i ≠ 0) : BuildsReadCommand i := by
  cases i with
  | rdfw => exact buildsReadCommand_of_emit2 0xD100 3 rfl rfl rfl
  | rdint => exact buildsReadCommand_of_emit2 0x4600 3 rfl rfl rfl
  | rdasc => exact buildsReadCommand_of_emit2 0x5306 3 rfl rfl rfl
  | rdfrc => exact buildsReadCommand_of_emit2 0x5204 3 rfl rfl rfl
  | rdtoff => exact buildsReadCommand_of_emit2 0x5403 3 rfl rfl rfl
  | rdrdy => exact buildsReadCommand_of_emit2 0x0202 3 rfl rfl rfl
  | rdmeas => exact buildsReadCommand_of_emit2 0x0300 18 rfl rfl rfl
  | _ => exact absurd rfl h

theorem buildsFrame_of_responseLength (h : responseLength i ≠ 0) : i.buildsFrame = true := by
  cases i with
  | clr | crc8 | chk | dec3 | dec6 | dec18 => exact absurd rfl h
  | _ => rfl

/-- A read command leaves a frame and cannot raise (rule R142). -/
theorem read_command_output (h : responseLength i ≠ 0) : outputOf i = some .frame ∧ canRaise i = false := by
  cases i with
  | rdfw | rdint | rdasc | rdfrc | rdtoff | rdrdy | rdmeas => exact ⟨rfl, rfl⟩
  | _ => exact absurd rfl h

/-- Its frame needs no check before it is sent (rule R153 (f)). -/
theorem Records.frame_checked_of_read_command (c : Records) (u : State) (h : responseLength i ≠ 0) :
    .frame ∉ (c.afterIssue i u).unchecked := by
  obtain ⟨hout, hraise⟩ := read_command_output h
  rw [Records.afterIssue_eq c i u (ne_clr_of_buildsFrame (buildsFrame_of_responseLength h)), mem_uncheckedAfter]
  simp [hout, hraise]

/-! ## Building and sending one -/

/-- In the state `t`, reached from the state `s`, the frame of this command stands in `TX`, of which the host has made this
use; what was loaded before stands, and a session is open. -/
structure CommandStands (i : Instr) (use : FrameUse) (s t : State) : Prop where
  rx : t.rx = s.rx
  rxLen : t.rxLen = s.rxLen
  txLen : t.txLen.toNat ≠ 0
  expLen : t.expLen.toNat = responseLength i
  frame_parses : s.tx.wf = true → parseFrame t.frame = .ok i
  connected : t.records.connected = true
  decodable : t.records.decodable = s.records.decodable
  checked : .frame ∉ t.records.unchecked
  frame : t.records.frame = use

theorem step_read_command (h : responseLength i ≠ 0) (hc : s.records.connected = true) (hf : s.records.frame ≠ .untaken)
    (hp : s.program = .issue (encode i).1 (encode i).2 :: rest) :
    ∃ t, step s = .next t ∧ t.program = rest ∧ CommandStands i .untaken s t := by
  have hb := buildsFrame_of_responseLength h
  have hclr := ne_clr_of_buildsFrame hb
  obtain ⟨bytes, k, hlen, hparse, hk, hop⟩ := buildsReadCommand h
  have hok : s.records.issueFault i s = none :=
    Records.issueFault_of_not_decode (decodeLength_of_buildsFrame hb) hclr fun _ => hf
  have hparses : s.tx.wf = true → parseFrame ((s.tx.writeBytes 0 bytes).readBytes 0 2) = .ok i := fun hwf =>
    (congrArg parseFrame (Memory.readBytes_writeBytes s.tx 0 2 bytes hwf hlen)).trans hparse
  refine ⟨_, step_issue_of_exec _ _ hp (decodeIssue_encode i) (.inr hok) (hop _), rfl, ?_⟩
  exact ⟨rfl, rfl, by simp, hk, hparses, (Records.afterIssue_connected s.records i _).trans hc,
    Records.afterIssue_decodable hclr, Records.frame_checked_of_read_command s.records _ h,
    Records.afterIssue_frame_of_buildsFrame hb⟩

theorem afterSteps_command_written (succeeds : Bool) (h : responseLength i ≠ 0) (hc : s.records.connected = true)
    (hf : s.records.frame ≠ .untaken)
    (hp : s.program = .issue (encode i).1 (encode i).2 :: .send succeeds :: rest) :
    ∃ t, afterSteps 2 s = .next t ∧ t.program = rest ∧
      CommandStands i (if succeeds then .sent else .writeFailed) s t := by
  obtain ⟨t, ht, hprogram, hstands⟩ := step_read_command h hc hf hp
  have hsend := ((frameIsSentOnce t rest succeeds hprogram hstands.txLen).2 hstands.connected hstands.checked).1
    hstands.frame
  refine ⟨_, (afterSteps_add 1 1 (afterSteps_one ht)).trans (afterSteps_one hsend), rfl, ?_⟩
  exact ⟨hstands.rx, hstands.rxLen, hstands.txLen, hstands.expLen, hstands.frame_parses, hstands.connected,
    hstands.decodable, hstands.checked, rfl⟩

/-! ## An exchange that fails (rule R41) -/

/-- Whether its write or its read fails, the bytes loaded before stand, and its frame is taken. -/
theorem afterSteps_failed_exchange (failure : List HostAction)
    (hfail : failure ∈ [[HostAction.send false], [.send true, .receive none]]) (h : responseLength i ≠ 0)
    (hc : s.records.connected = true) (hf : s.records.frame ≠ .untaken)
    (hp : s.program = .issue (encode i).1 (encode i).2 :: (failure ++ rest)) :
    ∃ t, afterSteps (failure.length + 1) s = .next t ∧ t.program = rest ∧ t.rx = s.rx ∧ t.rxLen = s.rxLen ∧
      t.records.decodable = s.records.decodable ∧ t.records.frame ≠ .untaken := by
  simp only [List.mem_cons, List.not_mem_nil, or_false] at hfail
  obtain rfl | rfl := hfail
  case inl =>
    obtain ⟨t, ht, hprogram, hw⟩ := afterSteps_command_written false h hc hf hp
    refine ⟨t, ht, hprogram, hw.rx, hw.rxLen, hw.decodable, ?_⟩
    rw [hw.frame]
    simp
  case inr =>
    obtain ⟨t, ht, hprogram, hw⟩ := afterSteps_command_written true h hc hf hp
    have hread := step_receive_none hprogram hw.connected hw.frame (hw.expLen ▸ h)
    exact ⟨_, (afterSteps_add 2 1 ht).trans (afterSteps_one hread), rfl, hw.rx, hw.rxLen, hw.decodable, by simp⟩

/-! ## An exchange that succeeds (rule R41, rule R153 (d)) -/

/-- Its reply is recorded as the answer to the command. -/
theorem afterSteps_reply_received (reply : List Byte) (h : responseLength i ≠ 0) (hreply : reply.length = responseLength i)
    (hwf : s.tx.wf = true) (hc : s.records.connected = true) (hf : s.records.frame ≠ .untaken)
    (hp : s.program = .issue (encode i).1 (encode i).2 :: .send true :: .receive (some reply) :: rest) :
    ∃ t, afterSteps 3 s = .next t ∧ t.program = rest ∧ t.rx = s.rx ∧ t.records.frame = .finished ∧
      t.records.reply = .received (some i) reply := by
  obtain ⟨t, ht, hprogram, hw⟩ := afterSteps_command_written true h hc hf hp
  have hread := (((transportReadAnswersSentCommand t rest (some reply) hprogram).2 hw.connected).2 hw.frame
    (hw.expLen ▸ h) reply rfl).2 (hreply.trans hw.expLen.symm) i (hw.frame_parses hwf)
  exact ⟨_, (afterSteps_add 2 1 ht).trans (afterSteps_one hread), rfl, hw.rx, rfl, rfl⟩

/-- The reply, or one float pair of a measurement, is what a host may load, and answers the command (rule R102). -/
theorem Reply.covers_received (reply : List Byte) (hreply : reply.length = responseLength i)
    (hbs : bs = reply ∨ i = .rdmeas ∧ bs ∈ floatPairsOf reply) :
    (Reply.received (some i) reply).covers bs = true ∧ (some reply = some bs ∨ bs.length = 6) := by
  rw [Reply.covers_iff]
  obtain rfl | ⟨rfl, hpair⟩ := hbs
  · exact ⟨.inl rfl, .inl rfl⟩
  · exact ⟨.inr ⟨reply, rfl, rfl, hpair⟩, .inr (length_of_mem_floatPairsOf hreply hpair)⟩

/-- Loaded and decoded, the result answers the command (rule R153 (d), (e)). -/
theorem afterSteps_load_decode (d : Instr × Nat) (hd : d ∈ decoders) (reply : List Byte)
    (hreply : reply.length = responseLength i) (hbs : bs = reply ∨ i = .rdmeas ∧ bs ∈ floatPairsOf reply)
    (hk : bs.length = 3 * d.2) (hwf : s.rx.wf = true) (hf : s.records.frame = .finished)
    (hr : s.records.reply = .received (some i) reply)
    (hp : s.program = .loadRx bs :: .issue (encode d.1).1 (encode d.1).2 :: rest) :
    ∃ t, afterSteps 2 s = .next t ∧ t.program = rest ∧ ResultOfBytes bs d.2 t ∧ t.records.result = some i ∧
      t.records.last = some .result := by
  obtain ⟨hcovers, hmay⟩ := Reply.covers_received reply hreply hbs
  rw [← hr] at hcovers
  obtain ⟨t, ht, hprogram, hrecords, hholds⟩ :=
    step_loads hp (length_le_of_decoder d hd hk) hwf fun _ => by rw [hr]; exact hmay
  have hloaded : t.records.loaded = some i := by
    rw [hrecords]
    exact (if_pos hcovers).trans (congrArg Reply.command hr)
  have hdecode : t.records.decodable = true ∧ t.records.forbidsDecode (3 * d.2) t = false := by
    rw [hrecords, Records.afterLoad_decodable, Reply.mayLoad_iff, ← Bool.not_eq_true, Records.forbidsDecode_iff, hr]
    exact ⟨hmay, by simp [hf]⟩
  obtain ⟨v, hv, hrest, hresult, hanswers, hlast⟩ := step_decodes d hd hholds hk hprogram fun _ => hdecode
  exact ⟨v, (afterSteps_add 1 1 (afterSteps_one ht)).trans (afterSteps_one hv), hrest, hresult, hanswers.trans hloaded, hlast⟩

/-! ## Checking and using the result (rule R153 (e), (f)) -/

/-- A data word of a standing result is used as the answer to its command, once the error was checked. -/
theorem consumeFault_of_word (g : Fin 6) (hv : s.valid = true) (hr : s.records.result = some i)
    (hu : .result ∉ s.records.unchecked) : consumeFault (.w g) i s = none :=
  (consumeFault_eq_none_iff (.w g) i .result rfl).mpr
    ⟨(HostReg.emptyFault_of_result (.w g) rfl).mpr ⟨hv, hv⟩,
      (Records.useFault_eq_none _ _ _ i).mpr ⟨hu, fun _ => ⟨hr, rfl⟩⟩⟩

/-- After the decode, reading `STATUS` checks it, and a word is then used; neither changes the block. -/
theorem afterSteps_check_use (g : Fin 6) (hv : s.valid = true) (hr : s.records.result = some i)
    (hlast : s.records.last = some .result) (hp : s.program = .read .status :: .consume (.w g) i :: rest) :
    ∃ c, afterSteps 2 s = .next ((s.setProgram rest).setRecords c) := by
  have hread := step_of_touchesNothing s (.consume (.w g) i :: rest) (.read .status) rfl hp rfl
  have hchecked : .result ∉ (s.records.afterLook .status).unchecked := fun hmem =>
    ((Records.mem_unchecked_afterLook_status s.records .result).mp hmem).2 hlast
  have huse := step_of_touchesNothing ((s.setProgram (.consume (.w g) i :: rest)).recorded (.read .status)) rest
    (.consume (.w g) i) rfl rfl (consumeFault_of_word g hv ((Records.afterLook_result s.records .status).trans hr) hchecked)
  exact ⟨_, (afterSteps_add 1 1 (afterSteps_one hread)).trans (afterSteps_one huse)⟩

end Sys2Proof.Machine

namespace Sys2Proof.Claims

open Sys2Proof.Machine

/-- Settles O59: the load, the exchange that fails, which leaves what is loaded, and the next command with the decode. -/
theorem loadedBytesOutliveFailedExchange : Obligations.LoadedBytesOutliveFailedExchange := by
  intro d hd i j bs s rest failure hfail hi hj hk _ hwf hc hload hf hp
  obtain ⟨t, ht, hprogram, hrecords, hholds⟩ := step_loads hp (length_le_of_decoder d hd hk) hwf fun _ => hload
  have htaken : t.records.frame ≠ .untaken := by
    rw [hrecords, Records.afterLoad_frame]
    split
    · simp
    · exact hf
  obtain ⟨u, hu, hrest, hrx, hrxLen, hdec, hframe⟩ :=
    afterSteps_failed_exchange failure hfail hi (by rw [hrecords]; exact hc) htaken hprogram
  have hheld : HoldsBytes u bs := hholds.congr hrxLen fun a => by rw [hrx]
  have hdecodable : u.records.decodable = true := by
    rw [hdec, hrecords]
    exact (Reply.mayLoad_iff _ bs).mpr hload
  obtain ⟨v, hv, hend, hresult⟩ := afterSteps_operation_decode d hd (decodeLength_of_buildsFrame hj)
    (ne_clr_of_buildsFrame hj) hheld hk hrest fun _ =>
      ⟨hdecodable, fun _ => hframe, fun hno => Bool.noConfusion (hj.symm.trans hno)⟩
  have hfirst := (afterSteps_add 1 (failure.length + 1) (afterSteps_one ht)).trans hu
  have hcount : failure.length + 4 = 1 + (failure.length + 1) + 2 := by omega
  exact ⟨v, hcount ▸ (afterSteps_add _ 2 hfirst).trans hv, hend, hresult.passed, hresult.failed⟩

/-- Settles O55: three steps to the reply, two to its result, and two to check and use it. -/
theorem exchangeByContractDeliversReply : Obligations.ExchangeByContractDeliversReply := by
  intro d hd i reply bs g s rest hi hreply hbs hk hintact htx hrx hc hf hp
  obtain ⟨t, ht, hprogram, hsame, hframe, hanswer⟩ := afterSteps_reply_received reply hi hreply htx hc hf hp
  obtain ⟨u, hu, hrest, hresult, hquestion, hlast⟩ :=
    afterSteps_load_decode d hd reply hreply hbs hk (hsame ▸ hrx) hframe hanswer hprogram
  obtain ⟨hvalid, herr, hwords⟩ := hresult.passed hintact
  obtain ⟨c, hv⟩ := afterSteps_check_use g hvalid hquestion hlast hrest
  exact ⟨_, (afterSteps_add 5 2 ((afterSteps_add 3 2 ht).trans hu)).trans hv, rfl, hvalid, herr, hwords⟩

end Sys2Proof.Claims
end

section
/-! PROOFS. The encodings (rules R45 to R57): the decoder of the host format, `parse_frame` and the wire encoder as inverses
of each other, frames as numbers of the opcode table, and the encode operations as builders of those frames. -/

namespace Sys2Proof.Machine

variable {i : Instr} {bs : List Byte}

/-! ## Words by their number and by their bytes (rules R31, R48) -/

theorem word_of_toNat {v : Word} {n : Nat} (h : v.toNat = n) : v = BitVec.ofNat 16 n := by
  rw [← h, BitVec.ofNat_toNat, BitVec.setWidth_eq]

/-- A word without a high byte has the number of its low byte. -/
theorem zero_append_toNat (b : Byte) : ((0 : Byte) ++ b : Word).toNat = b.toNat := by
  have hhi := hiByte_toNat ((0 : Byte) ++ b)
  have hlo := loByte_toNat ((0 : Byte) ++ b)
  rw [hiByte_append] at hhi
  rw [loByte_append] at hlo
  change 0 = _ at hhi
  omega

theorem zero_append_loByte {v : Word} (h : v.toNat ≤ 255) : (0 : Byte) ++ loByte v = v :=
  BitVec.eq_of_toNat_eq (by rw [zero_append_toNat, loByte_toNat]; omega)

theorem hiByte_eq_zero_of_le {v : Word} (h : v.toNat ≤ 255) : hiByte v = 0 :=
  BitVec.eq_of_toNat_eq ((hiByte_toNat v).trans (Nat.div_eq_of_lt (by omega)))

/-! ## `parse_frame` of a frame (rule R53) -/

/-- The frame of a parameter given by its two bytes. -/
theorem frameF5_append (rh rl ph pl : Byte) : frameF5 rh rl (ph ++ pl) = [rh, rl, ph, pl, crc8 ph pl] := by
  change [rh, rl, hiByte (ph ++ pl), loByte (ph ++ pl), crc8 (hiByte (ph ++ pl)) (loByte (ph ++ pl))] = _
  rw [hiByte_append, loByte_append]

/-- A frame with a parameter passes the checksum test, and its register and parameter decide (rules R48, R53). -/
theorem parseFrame_frameF5 (rh rl : Byte) (p : Word) :
    parseFrame (frameF5 rh rl p) = parseF5 (rh ++ rl) (hiByte p) (loByte p) := if_pos rfl

theorem parseF5_wrint {sec : Word} (h : (Instr.wrint sec).wellFormed = true) :
    parseF5 0x4600 (hiByte sec) (loByte sec) = .ok (.wrint sec) := by
  simp only [Instr.wellFormed, Bool.and_eq_true, decide_eq_true_eq] at h
  obtain ⟨hpos, hle⟩ := h
  have hlo : loByte sec ≠ 0 := fun h0 => by
    have := (loByte_toNat sec).symm.trans (congrArg BitVec.toNat h0)
    change sec.toNat % 256 = 0 at this
    omega
  exact (if_pos ⟨hiByte_eq_zero_of_le hle, hlo⟩).trans (by rw [zero_append_loByte hle])

theorem parseF5_wrasc {en : Word} (h : (Instr.wrasc en).wellFormed = true) :
    parseF5 0x5306 (hiByte en) (loByte en) = .ok (.wrasc en) := by
  have hle : en.toNat ≤ 1 := of_decide_eq_true h
  have hlo : (loByte en).toNat ≤ 1 := by rw [loByte_toNat]; omega
  exact (if_pos ⟨hiByte_eq_zero_of_le (by omega), hlo⟩).trans (by rw [zero_append_loByte (by omega)])

/-- The frame of a well-formed operation is read back as the operation, operand included (rule R53). -/
theorem parseFrame_of_wireFrame (hw : i.wellFormed = true) (h : wireFrame i = some bs) : parseFrame bs = .ok i := by
  cases i with
  | clr | crc8 | chk | dec3 | dec6 | dec18 => cases h
  | rdfw | srst | rdint | rdasc | rdfrc | rdtoff | rdrdy | stopm | rdmeas => cases h; rfl
  | wrint sec => cases h; exact (parseFrame_frameF5 _ _ sec).trans (parseF5_wrint hw)
  | wrasc en => cases h; exact (parseFrame_frameF5 _ _ en).trans (parseF5_wrasc hw)
  | wrfrc p | startc p =>
    cases h
    refine (parseFrame_frameF5 _ _ p).trans ?_
    conv_rhs => rw [← hiByte_append_loByte p]
    rfl

/-! ## Nothing else is a frame (rules R52, R53) -/

/-- Each of the nine registers that `parseF2` knows is the whole frame of its operation. -/
theorem wireFrame_of_parseF2 {reg : Word} (h : parseF2 reg = .ok i) :
    i.wellFormed = true ∧ wireFrame i = some [hiByte reg, loByte reg] := by
  unfold parseF2 at h
  split at h <;> cases h
  all_goals
    rename_i hreg
    obtain rfl := word_of_toNat hreg
    exact ⟨rfl, rfl⟩

/-- Each of the four registers that `parseF5` knows heads the frame of its operation, whose operand is in range. -/
theorem wireFrame_of_parseF5 {reg : Word} {ph pl : Byte} (h : parseF5 reg ph pl = .ok i) :
    i.wellFormed = true ∧ wireFrame i = some [hiByte reg, loByte reg, ph, pl, crc8 ph pl] := by
  unfold parseF5 at h
  split at h
  case h_1 hreg =>
    obtain rfl := word_of_toNat hreg
    split at h <;> cases h
    next hrange =>
      obtain ⟨rfl, hpl⟩ := hrange
      have hpos : pl.toNat ≠ 0 := fun h0 => hpl (BitVec.eq_of_toNat_eq h0)
      have hlt := pl.isLt
      refine ⟨?_, congrArg some (frameF5_append _ _ _ _)⟩
      simp only [Instr.wellFormed, zero_append_toNat, Bool.and_eq_true, decide_eq_true_eq]
      omega
  case h_2 hreg =>
    obtain rfl := word_of_toNat hreg
    split at h <;> cases h
    next hrange =>
      obtain ⟨rfl, hpl⟩ := hrange
      refine ⟨decide_eq_true ?_, congrArg some (frameF5_append _ _ _ _)⟩
      rwa [zero_append_toNat]
  case h_3 hreg | h_4 hreg =>
    obtain rfl := word_of_toNat hreg
    cases h
    exact ⟨rfl, congrArg some (frameF5_append _ _ _ _)⟩
  case h_5 => cases h

/-- Whatever `parse_frame` accepts is the frame of the well-formed operation it answers. -/
theorem wireFrame_of_parseFrame (h : parseFrame bs = .ok i) : i.wellFormed = true ∧ wireFrame i = some bs := by
  unfold parseFrame at h
  split at h
  case h_1 rh rl => simpa only [hiByte_append, loByte_append] using wireFrame_of_parseF2 h
  case h_2 rh rl ph pl ck =>
    split at h
    · next hck =>
      subst hck
      simpa only [hiByte_append, loByte_append] using wireFrame_of_parseF5 h
    · cases h
  case h_3 => cases h

/-! ## Frames as numbers (rule R45, assumption 7) -/

/-- A number that bytes are appended to moves up by eight bits for each of them. -/
theorem foldl_wireNumber (n : Nat) :
    bs.foldl (fun n b => n * 256 + b.toNat) n = n * 2 ^ (8 * bs.length) + wireNumber bs := by
  induction bs generalizing n with
  | nil => simp [wireNumber]
  | cons b bs ih =>
    rw [wireNumber, List.foldl_cons, List.foldl_cons, ih, ih (0 * 256 + b.toNat), List.length_cons,
      show 8 * (bs.length + 1) = 8 * bs.length + 8 by omega, Nat.pow_add]
    ring

/-- The first byte is the most significant. -/
theorem wireNumber_cons (b : Byte) : wireNumber (b :: bs) = b.toNat * 2 ^ (8 * bs.length) + wireNumber bs := by
  rw [wireNumber, List.foldl_cons, foldl_wireNumber, Nat.zero_mul, Nat.zero_add]

theorem wireNumber_lt : wireNumber bs < 2 ^ (8 * bs.length) := by
  induction bs with
  | nil => exact Nat.zero_lt_one
  | cons b bs ih =>
    rw [wireNumber_cons, List.length_cons, show 8 * (bs.length + 1) = 8 + 8 * bs.length by omega, Nat.pow_add]
    calc b.toNat * 2 ^ (8 * bs.length) + wireNumber bs
      _ < (b.toNat + 1) * 2 ^ (8 * bs.length) := by rw [Nat.succ_mul b.toNat]; omega
      _ ≤ 2 ^ 8 * 2 ^ (8 * bs.length) := Nat.mul_le_mul_right _ b.isLt

theorem mul_two_pow_add_div (c k w : Nat) : (c * 2 ^ k + w) / 2 ^ k = c + w / 2 ^ k := by
  rw [Nat.mul_comm, Nat.mul_add_div (Nat.two_pow_pos k)]

/-- The low `n` bytes of a number do not see what stands above them. -/
theorem wireBytes_add_mul (n c w : Nat) : wireBytes n (c * 2 ^ (8 * n) + w) = wireBytes n w := by
  induction n generalizing c with
  | zero => rfl
  | succ n ih =>
    have hsplit : c * 2 ^ (8 * (n + 1)) + w = c * 256 * 2 ^ (8 * n) + w := by
      rw [show 8 * (n + 1) = 8 + 8 * n by omega, Nat.pow_add, Nat.mul_assoc]
    have hhead : BitVec.ofNat 8 (c * 256 + w / 2 ^ (8 * n)) = BitVec.ofNat 8 (w / 2 ^ (8 * n)) :=
      BitVec.eq_of_toNat_eq (by simp only [BitVec.toNat_ofNat]; omega)
    rw [hsplit, wireBytes, wireBytes, ih, mul_two_pow_add_div, hhead]

/-- The bytes of the number of a byte sequence are that sequence. -/
theorem wireBytes_wireNumber : wireBytes bs.length (wireNumber bs) = bs := by
  induction bs with
  | nil => rfl
  | cons b bs ih =>
    have hhead : (b.toNat * 2 ^ (8 * bs.length) + wireNumber bs) / 2 ^ (8 * bs.length) = b.toNat := by
      rw [mul_two_pow_add_div, Nat.div_eq_of_lt wireNumber_lt, Nat.add_zero]
    rw [wireNumber_cons, List.length_cons, wireBytes, wireBytes_add_mul, ih, hhead, BitVec.ofNat_toNat, BitVec.setWidth_eq]

/-- A table word of 16 or 40 bits is read as the frame it numbers. -/
theorem decodeTableWord_wireNumber (h : bs.length = 2 ∨ bs.length = 5) :
    decodeTableWord (8 * bs.length) (wireNumber bs) = (parseFrame bs).toOption := by
  have hbytes := wireBytes_wireNumber (bs := bs)
  rw [decodeTableWord, if_neg (Nat.not_le.mpr wireNumber_lt)]
  obtain h2 | h5 := h
  · rw [h2] at hbytes ⊢
    rw [if_neg (by decide), if_pos rfl, hbytes]
  · rw [h5] at hbytes ⊢
    rw [if_neg (by decide), if_neg (by decide), if_pos rfl, hbytes]

/-! ## The encode operations build their frames (rules R75 to R88) -/

/-- Table E-4, the length of each frame beside that of its response (rule R57). -/
theorem length_wireFrame (h : wireFrame i = some bs) :
    bs.length = 5 ∧ responseLength i = 0 ∨
    bs.length = 2 ∧ (i = .srst ∨ i = .stopm) ∧ responseLength i = 0 ∨
    bs.length = 2 ∧ i = .rdmeas ∧ responseLength i = 18 ∨
    bs.length = 2 ∧ i ≠ .srst ∧ i ≠ .stopm ∧ i ≠ .rdmeas ∧ responseLength i = 3 := by
  cases i with
  | clr | crc8 | chk | dec3 | dec6 | dec18 => cases h
  | wrint | wrasc | wrfrc | startc => cases h; exact .inl ⟨rfl, rfl⟩
  | srst => cases h; exact .inr (.inl ⟨rfl, .inl rfl, rfl⟩)
  | stopm => cases h; exact .inr (.inl ⟨rfl, .inr rfl, rfl⟩)
  | rdmeas => cases h; exact .inr (.inr (.inl ⟨rfl, rfl, rfl⟩))
  | rdfw | rdint | rdasc | rdfrc | rdtoff | rdrdy =>
    cases h
    exact .inr (.inr (.inr ⟨rfl, nofun, nofun, nofun, rfl⟩))

/-- In every state the operation stores five bytes that begin with its wire frame, sets `TXLEN` to the frame's length and
`EXPLEN` to that of the response, and raises nothing. -/
structure BuildsWireFrame (i : Instr) (bytes : List Byte) (n : BitVec 3) (k : BitVec 5) : Prop where
  exec_eq : ∀ s, exec i s = .next ((s.setFrame (s.tx.writeBytes 0 bytes) n k).setErr .none)
  txLen_le : n.toNat ≤ bytes.length
  wireFrame_eq : wireFrame i = some (bytes.take n.toNat)
  expLen_eq : k.toNat = responseLength i

theorem buildsWireFrame_of_emit2 (reg : Word) (k : BitVec 5) (hop : exec i = emit2 reg k)
    (hframe : wireFrame i = some [hiByte reg, loByte reg]) (hk : k.toNat = responseLength i) :
    ∃ bytes n k, BuildsWireFrame i bytes n k :=
  ⟨[hiByte reg, loByte reg, 0, 0, 0], 2, k, fun s => by rw [hop, emit2_eq_next], by simp, hframe, hk⟩

theorem buildsWireFrame_of_emit5 (reg p : Word) (hop : exec i = emit5 reg p)
    (hframe : wireFrame i = some (frameF5 (hiByte reg) (loByte reg) p)) (hk : responseLength i = 0) :
    ∃ bytes n k, BuildsWireFrame i bytes n k :=
  ⟨frameF5 (hiByte reg) (loByte reg) p, 5, 0, fun s => by rw [hop]; exact emit5_eq_next reg p s, Nat.le_refl 5, hframe,
    hk.symm⟩

theorem execWrint_of_wellFormed {sec : Word} (h : (Instr.wrint sec).wellFormed = true) :
    execWrint sec = emit5 0x4600 sec := by
  simp only [Instr.wellFormed, Bool.and_eq_true, decide_eq_true_eq] at h
  have hparam : lowByteParameter sec = sec :=
    BitVec.eq_of_toNat_eq ((lowByteParameter_toNat sec).trans (Nat.mod_eq_of_lt (by omega)))
  funext s
  rw [execWrint, if_neg (by omega), hparam]

theorem execWrasc_of_wellFormed {en : Word} (h : (Instr.wrasc en).wellFormed = true) :
    execWrasc en = emit5 0x5306 en :=
  funext fun _ => if_neg (Nat.not_lt.mpr (of_decide_eq_true h))

/-- Every well-formed encode operation builds the frame that Table E-4 writes for it. -/
theorem exec_buildsWireFrame (hb : i.buildsFrame = true) (hw : i.wellFormed = true) :
    ∃ bytes n k, BuildsWireFrame i bytes n k := by
  cases i with
  | clr | crc8 | chk | dec3 | dec6 | dec18 => exact Bool.noConfusion hb
  | rdfw | srst | rdint | rdasc | rdfrc | rdtoff | rdrdy | stopm | rdmeas =>
    exact buildsWireFrame_of_emit2 _ _ rfl rfl rfl
  | wrint sec => exact buildsWireFrame_of_emit5 0x4600 sec (execWrint_of_wellFormed hw) rfl rfl
  | wrasc en => exact buildsWireFrame_of_emit5 0x5306 en (execWrasc_of_wellFormed hw) rfl rfl
  | wrfrc p | startc p => exact buildsWireFrame_of_emit5 _ p rfl rfl rfl

end Sys2Proof.Machine

namespace Sys2Proof.Claims

open Sys2Proof.Machine

/-- Settles O9: the frame of an operation is read back, and what is read is a frame. -/
theorem wireFramesDecodeAndEncodeAgree : Obligations.WireFramesDecodeAndEncodeAgree :=
  ⟨fun _ _ hw h => parseFrame_of_wireFrame hw h, fun _ _ h => wireFrame_of_parseFrame h⟩

/-- Settles O10: what is stored over a canonical `TX` begins with the wire frame, and `TXLEN` cuts exactly that. -/
theorem builtFrameParsesBack : Obligations.BuiltFrameParsesBack := by
  intro i s hb hw hwf
  obtain ⟨bytes, n, k, hbuilds⟩ := exec_buildsWireFrame hb hw
  have hframe : wireFrame i = some ((s.tx.writeBytes 0 bytes).readBytes 0 n.toNat) := by
    rw [Memory.readBytes_writeBytes s.tx 0 n.toNat bytes hwf hbuilds.txLen_le, hbuilds.wireFrame_eq]
  exact ⟨_, hbuilds.exec_eq s, by simp, hframe, parseFrame_of_wireFrame hw hframe⟩

/-- Settles O11: the bytes of the number of a frame are the frame, and `parse_frame` reads it. -/
theorem tableWordOfFrameDecodes : Obligations.TableWordOfFrameDecodes := by
  intro i bs hw h
  have hlen : bs.length = 2 ∨ bs.length = 5 := by
    have := length_wireFrame h
    omega
  rw [decodeTableWord_wireNumber hlen, parseFrame_of_wireFrame hw h]
  rfl

/-- Settles O21: `TXLEN` is the length of the frame built, and Table E-4 gives the response that goes with it. -/
theorem frameAndResponseLengthsGoTogether : Obligations.FrameAndResponseLengthsGoTogether := by
  intro i s hb hw
  obtain ⟨bytes, n, k, hbuilds⟩ := exec_buildsWireFrame hb hw
  have hlengths := length_wireFrame hbuilds.wireFrame_eq
  rw [List.length_take_of_le hbuilds.txLen_le, ← hbuilds.expLen_eq] at hlengths
  exact ⟨_, hbuilds.exec_eq s, hbuilds.expLen_eq, hlengths⟩

/-- Settles O6: the arms of the decoder, and the codes that match none of them. -/
theorem opselCodesDecodeAsTabulated : Obligations.OpselCodesDecodeAsTabulated := by
  refine ⟨fun arg => ?tabulated, fun opsel arg hgap => ?undefined⟩
  case tabulated =>
    exact ⟨rfl, rfl, rfl, rfl, rfl, rfl, rfl, rfl, rfl, rfl, rfl, rfl, rfl, rfl, rfl, rfl, rfl, rfl, rfl⟩
  case undefined =>
    unfold decodeIssue
    split
    case h_20 => rfl
    all_goals omega

/-- Settles O7: each frame is the wire frame of its command; the 16-bit word is the number of one. -/
theorem writtenOutFramesDecode : Obligations.WrittenOutFramesDecode :=
  ⟨parseFrame_of_wireFrame rfl rfl, parseFrame_of_wireFrame rfl rfl,
    parseFrame_of_wireFrame rfl (by decide +kernel), parseFrame_of_wireFrame rfl (by decide +kernel), rfl,
    tableWordOfFrameDecodes .rdasc [0x53, 0x06] rfl rfl⟩

/-- Settles O8, operation by operation. -/
theorem issueEncodingRoundTrip : Obligations.IssueEncodingRoundTrip := decodeIssue_encode

end Sys2Proof.Claims
end

section
/-! PROOFS. The checksum (rules R65 to R71): the bit-serial loop as a permutation of the bytes and as eight turns of a long
division, `crc8` in its other forms, and the two operations that use it. -/

namespace Sys2Proof.Machine

/-! ## The procedure written out (rule R65) -/

theorem crc8_eq_crcLoop (a b : Byte) : crc8 a b = crcLoop (crcLoop (0xFF ^^^ a) ^^^ b) := rfl

/-- A third byte meets the checksum of the first two (rule R71). -/
theorem crcOver_three (a b c : Byte) : crcOver [a, b, c] = crcLoop (crc8 a b ^^^ c) := rfl

/-! ## No two registers shift to the same one -/

/-- The polynomial is odd, so the bit that a turn shifts out reappears as the lowest bit. -/
theorem crcShift_getLsbD_zero (c : Byte) : (crcShift c).getLsbD 0 = c.msb := by
  unfold crcShift
  split
  · next h => simp [h, crcPoly]
  · next h => simp [h]

/-- A byte is its highest bit and what a left shift keeps of it. -/
theorem eq_of_msb_of_shiftLeft_one {c d : Byte} (hm : c.msb = d.msb) (h : c <<< 1 = d <<< 1) : c = d := by
  refine BitVec.eq_of_getLsbD_eq fun i hi => ?_
  by_cases h7 : i = 7
  · subst h7
    simpa [BitVec.msb_eq_getLsbD_last] using hm
  · have hbit := congrArg (fun v => v.getLsbD (i + 1)) h
    simpa [show i + 1 < 8 by omega, ← BitVec.getLsbD_eq_getElem] using hbit

theorem crcShift_injective : Function.Injective crcShift := by
  intro c d h
  have hm : c.msb = d.msb := by rw [← crcShift_getLsbD_zero, h, crcShift_getLsbD_zero]
  refine eq_of_msb_of_shiftLeft_one hm ?_
  unfold crcShift at h
  rw [hm] at h
  split at h
  · exact (BitVec.xor_left_inj crcPoly).mp h
  · exact h

theorem crcShifts_injective (n : Nat) : Function.Injective (crcShifts n) := by
  induction n with
  | zero => exact Function.injective_id
  | succ n ih => exact ih.comp crcShift_injective

theorem crcLoop_injective : Function.Injective crcLoop := crcShifts_injective 8

theorem crcLoop_eq_zero_iff (c : Byte) : crcLoop c = 0 ↔ c = 0 :=
  crcLoop_injective.eq_iff' (by decide)

theorem crc8_injective_left (b : Byte) : Function.Injective fun a => crc8 a b := by
  intro a a' h
  have hfirst := crcLoop_injective ((BitVec.xor_left_inj b).mp (crcLoop_injective h))
  exact (BitVec.xor_right_inj 0xFF).mp hfirst

theorem crc8_injective_right (a : Byte) : Function.Injective (crc8 a) :=
  fun _ _ h => (BitVec.xor_right_inj _).mp (crcLoop_injective h)

/-- There are as many checksums as second bytes, so each one occurs (rule R70). -/
theorem crc8_surjective_right (a : Byte) : Function.Surjective (crc8 a) :=
  Finite.surjective_of_injective (crc8_injective_right a)

/-! ## The table (rule R66 (a)) -/

/-- Each of the 256 printed entries is what the inner loop makes of its index. -/
theorem crcTable_eq_crcLoop : ∀ i, crcTable i = crcLoop i := by decide +kernel

/-! ## Long division (rule R66 (b)) -/

/-- The inner loop's turn in a register wide enough to hold the carry: the whole polynomial 0x131 cancels it. -/
theorem setWidth_crcShift : ∀ c : Byte,
    (crcShift c).setWidth 24 = c.setWidth 24 <<< 1 ^^^ if c.msb then (0x131 : BitVec 24) else 0 := by
  decide +kernel

/-- The leading bit of a dividend is that of the byte on top of it. -/
theorem getLsbD_lead (c : Byte) (r : BitVec 24) (n : Nat) (hn : n < 16) (hr : r.getLsbD (n + 8) = false) :
    (c.setWidth 24 <<< (n + 1) ^^^ r).getLsbD (n + 8) = c.msb := by
  rw [BitVec.getLsbD_xor, hr, BitVec.getLsbD_shiftLeft, show n + 8 - (n + 1) = 7 by omega, BitVec.msb_eq_getLsbD_last]
  simp [show n + 8 < 24 by omega]

/-- One turn of the division is one turn of the inner loop on the byte on top of the dividend. -/
theorem polyRemainder_turn (c : Byte) (r : BitVec 24) (n : Nat) (hn : n < 16) (hr : r.getLsbD (n + 8) = false) :
    polyRemainder (n + 1) (c.setWidth 24 <<< (n + 1) ^^^ r) = polyRemainder n ((crcShift c).setWidth 24 <<< n ^^^ r) := by
  have hshift : (c.setWidth 24 : BitVec 24) <<< (n + 1) = c.setWidth 24 <<< 1 <<< n := by
    rw [← BitVec.shiftLeft_add, Nat.add_comm]
  rw [polyRemainder, getLsbD_lead c r n hn hr, setWidth_crcShift, BitVec.shiftLeft_xor_distrib, hshift]
  cases c.msb with
  | true => simp only [if_true, BitVec.xor_assoc, BitVec.xor_comm r]
  | false => simp

/-- `k` turns, over a rest of the dividend that lies below all the bits they cancel. -/
theorem polyRemainder_turns (c : Byte) (r : BitVec 24) (n k : Nat) (hk : n + k ≤ 16)
    (hr : ∀ i, n + 8 ≤ i → r.getLsbD i = false) :
    polyRemainder (n + k) (c.setWidth 24 <<< (n + k) ^^^ r) = polyRemainder n ((crcShifts k c).setWidth 24 <<< n ^^^ r) := by
  induction k generalizing c with
  | zero => rfl
  | succ k ih =>
    rw [← Nat.add_assoc, polyRemainder_turn c r (n + k) (by omega) (hr _ (by omega)), ih (crcShift c) (by omega)]
    rfl

/-- Two bytes and eight zeros, as the polynomials of the two bytes at their places. -/
theorem two_bytes_shifted (a b : Byte) :
    (a ++ b ++ (0 : Byte) : BitVec 24) = a.setWidth 24 <<< 16 ^^^ b.setWidth 24 <<< 8 := by
  refine BitVec.eq_of_getLsbD_eq fun i (hi : i < 24) => (BitVec.getLsbD_append (x := a ++ b) (y := 0)).trans ?_
  rw [getLsbD_two_bytes]
  obtain h | h | h : i < 8 ∨ 8 ≤ i ∧ i < 16 ∨ 16 ≤ i := by omega
  · simp [h, show i < 16 by omega]
  · simp [h, hi, show ¬ i < 8 by omega, show i - 8 < 8 by omega]
  · have hb : b.getLsbD (i - 8) = false := BitVec.getLsbD_of_ge b _ (by omega)
    simp [hb, hi, show ¬ i < 8 by omega, show ¬ i < 16 by omega, show ¬ i - 8 < 8 by omega, show i - 8 - 8 = i - 16 by omega]

/-- The message polynomial with the initial value added: the first byte comes with 0xFF already XORed. -/
theorem message_with_initial_value (a b : Byte) : (a ++ b ++ (0 : Byte)) ^^^ ((0xFF : Byte) ++ (0 : Word)) =
    (0xFF ^^^ a).setWidth 24 <<< 16 ^^^ (b.setWidth 24 <<< 8 : BitVec 24) := by
  have hinit : ((0xFF : Byte) ++ (0 : Word) : BitVec 24) = (0xFF : Byte).setWidth 24 <<< 16 := rfl
  rw [two_bytes_shifted, hinit, BitVec.xor_comm, BitVec.setWidth_xor, BitVec.shiftLeft_xor_distrib, BitVec.xor_assoc]

theorem crc8Poly_eq_crcLoop (a b : Byte) : crc8Poly a b = crcLoop (crcLoop (0xFF ^^^ a) ^^^ b) := by
  have hfirst : polyRemainder 16 ((0xFF ^^^ a).setWidth 24 <<< 16 ^^^ b.setWidth 24 <<< 8) =
      polyRemainder 8 ((crcLoop (0xFF ^^^ a)).setWidth 24 <<< 8 ^^^ b.setWidth 24 <<< 8) :=
    polyRemainder_turns (0xFF ^^^ a) (b.setWidth 24 <<< 8) 8 8 (Nat.le_refl 16) fun i hi => by
      simp [BitVec.getLsbD_of_ge b (i - 8) (by omega)]
  have hjoin : (crcLoop (0xFF ^^^ a)).setWidth 24 <<< 8 ^^^ (b.setWidth 24 <<< 8 : BitVec 24) =
      (crcLoop (0xFF ^^^ a) ^^^ b).setWidth 24 <<< 8 ^^^ 0 := by
    rw [← BitVec.shiftLeft_xor_distrib, ← BitVec.setWidth_xor]
    exact BitVec.xor_zero.symm
  have hsecond : polyRemainder 8 ((crcLoop (0xFF ^^^ a) ^^^ b).setWidth 24 <<< 8 ^^^ 0) =
      (crcLoop (crcLoop (0xFF ^^^ a) ^^^ b)).setWidth 24 <<< 0 ^^^ 0 :=
    polyRemainder_turns (crcLoop (0xFF ^^^ a) ^^^ b) 0 0 8 (by omega) fun _ _ => BitVec.getLsbD_zero
  rw [crc8Poly, message_with_initial_value, hfirst, hjoin, hsecond]
  simp

/-! ## `CHK` (rule R68) -/

/-- `MATCH` and `ERR` after `CHK`: the group outside the loaded bytes, and the group inside them. -/
theorem exec_chk_outcome (g : Word) (s : State) (h18 : s.rxLen.toNat ≤ 18) : ∃ t, exec (.chk g) s = .next t ∧
    (3 * g.toNat + 3 > s.rxLen.toNat → t.matched = false ∧ t.err = ErrorCode.lengthError.code) ∧
    (3 * g.toNat + 3 ≤ s.rxLen.toNat →
      t.matched = (rxGroup s g.toNat).intact ∧ t.err = ErrorCode.none.code) := by
  by_cases hlen : s.rxLen.toNat < 3 * g.toNat + 3
  · exact ⟨_, execChk_of_short s g hlen, fun _ => by simp, fun hin => absurd hin (by omega)⟩
  · exact ⟨_, execChk_of_inside s g (by omega) (by omega), fun hout => absurd hout hlen, fun _ => by simp⟩

end Sys2Proof.Machine

namespace Sys2Proof.Claims

open Sys2Proof.Machine

/-- Settles O13: each of the two inner loops is eight turns of the division. -/
theorem checksumEqualsPolynomialRemainder : Obligations.ChecksumEqualsPolynomialRemainder :=
  fun a b => (crc8Poly_eq_crcLoop a b).symm

/-- Settles O12: the table holds the inner loop of every byte. -/
theorem checksumEqualsTableForm : Obligations.ChecksumEqualsTableForm := by
  intro a b
  rw [crc8_eq_crcLoop, crcTable_eq_crcLoop, crcTable_eq_crcLoop]

/-- Settles O14: the inner loop ends with 0 on 0 alone, and that is the checksum XORed with itself. -/
theorem residueIsZeroExactlyOnIntactGroups : Obligations.ResidueIsZeroExactlyOnIntactGroups := by
  intro dh dl ck
  rw [crcOver_three, crcLoop_eq_zero_iff]
  exact BitVec.xor_eq_zero_iff.trans eq_comm

/-- Settles O15: `crc8` is injective in each byte, and so takes every value in the second. -/
theorem singleByteChangeAltersChecksum : Obligations.SingleByteChangeAltersChecksum := by
  refine ⟨fun a a' b => (crc8_injective_left b).ne, fun a b b' => (crc8_injective_right a).ne, fun a ck => ?_⟩
  obtain ⟨b, rfl⟩ := crc8_surjective_right a ck
  exact ⟨b, rfl, fun b' h => crc8_injective_right a h⟩

/-- Settles O17: `CHK` keeps what its class keeps, and the two cases of its outcome give `MATCH` and `ERR`. -/
theorem chkComparesOneGroup : Obligations.ChkComparesOneGroup := by
  intro g s h18
  obtain ⟨t, ht, hout, hin⟩ := exec_chk_outcome g s h18
  obtain ⟨hkeeps, hcrc⟩ := exec_chk_keeps s t g ht
  exact ⟨rfl, t, ht, hcrc, hkeeps, hout, hin⟩

/-- Settles O16: the state `CRC8` leaves, read field by field, and what its class keeps. -/
theorem crcOperationComputesChecksum : Obligations.CrcOperationComputesChecksum := by
  intro arg s
  obtain ⟨hkeeps, hmatched⟩ := exec_crc8_keeps s _ arg rfl
  exact ⟨rfl, _, rfl, rfl, by simp, hmatched, hkeeps⟩

end Sys2Proof.Claims
end

section
/-! PROOFS. The frame encoder (rules R75 to R91): what `emit2`, `emit5` and `refuse` leave over a canonical `TX`, the operands
that `WRINT` and `WRASC` take or refuse, and the tail of a parameter frame as a group that `CHK` accepts. -/

namespace Sys2Proof.Machine

open Sys2Proof.Claims

variable {s t : State} {i : Instr}

/-! ## The three helpers (rule R75) -/

/-- An encode operation that stores five bytes leaves them in `TX`, with its lengths and its error code, and all else as it
was. -/
theorem exec_leavesFrame (hb : i.buildsFrame = true) {bs : List Byte} {n : BitVec 3} {k : BitVec 5} {e : ErrorCode}
    (hlen : bs.length = 5) (hop : exec i s = .next ((s.setFrame (s.tx.writeBytes 0 bs) n k).setErr e))
    (hwf : s.tx.wf = true) :
    ∃ t, exec i s = .next t ∧ FrameIs t bs n.toNat k.toNat e ∧ KeepsAllButFrame s t := by
  have hbytes : (s.tx.writeBytes 0 bs).readBytes 0 5 = bs := by
    rw [Memory.readBytes_writeBytes s.tx 0 5 bs hwf hlen.ge, ← hlen, List.take_length]
  exact ⟨_, hop, ⟨hbytes, rfl, rfl, State.setErr_err _ e⟩, exec_frame_keeps s _ i hb hop⟩

theorem buildsFixedFrame_of_emit2 {opsel : Byte} (reg : Word) (k : BitVec 5) (hop : exec i = emit2 reg k)
    (hd : ∀ arg, decodeIssue opsel arg = .ok i) (hb : i.buildsFrame = true) :
    BuildsFixedFrame opsel i (hiByte reg) (loByte reg) k.toNat :=
  ⟨hd, fun s => exec_leavesFrame hb rfl (hop ▸ emit2_eq_next reg k s)⟩

theorem buildsParameterFrame_of_emit5 (reg p : Word) (hop : exec i = emit5 reg p) (hb : i.buildsFrame = true) :
    BuildsParameterFrame i (hiByte reg) (loByte reg) (hiByte p) (loByte p) :=
  fun s => exec_leavesFrame hb rfl (hop ▸ emit5_eq_next reg p s)

/-- A parameter that fits into one byte has payload-high 0x00 (rules R79, R81). -/
theorem buildsParameterFrame_of_emit5_of_le (reg : Word) {p : Word} (hp : p.toNat ≤ 255) (hop : exec i = emit5 reg p)
    (hb : i.buildsFrame = true) : BuildsParameterFrame i (hiByte reg) (loByte reg) 0x00 (loByte p) :=
  hiByte_eq_zero_of_le hp ▸ buildsParameterFrame_of_emit5 reg p hop hb

theorem refusesOperand_of_refuse (hop : exec i = refuse) (hb : i.buildsFrame = true) : RefusesOperand i :=
  fun s => exec_leavesFrame hb rfl (hop ▸ refuse_eq_next s)

/-! ## Operands out of range (rule R91) -/

theorem execWrint_of_out_of_range {sec : Word} (h : sec.toNat = 0 ∨ sec.toNat > 255) : execWrint sec = refuse :=
  funext fun _ => if_pos h

theorem execWrasc_of_out_of_range {en : Word} (h : en.toNat > 1) : execWrasc en = refuse :=
  funext fun _ => if_pos h

/-! ## The tail of a parameter frame (rule R90) -/

/-- The bytes of the frame one by one. -/
theorem read_of_frameIs {bs : List Byte} {n k : Nat} {e : ErrorCode} (h : FrameIs t bs n k e) {a : Nat} (ha : a < 5) :
    t.tx.read a = bs.getD a 0 := by
  rw [← h.bytes_eq, Memory.getD_readBytes t.tx 5 0 a ha, Nat.zero_add]

/-- No encode operation writes `RX`, not even to store the same bytes (rule R75). -/
theorem exec_frame_rx (hb : i.buildsFrame = true) (h : exec i s = .next t) : t.rx = s.rx := by
  obtain ⟨bs, n, k, e, -, hop⟩ := exec_storesFrame i hb
  obtain rfl := Host.Outcome.next.inj ((hop s).symm.trans h)
  rfl

/-- `CHK 0` accepts two bytes with their checksum, loaded as the first group (rule R68). -/
theorem exec_chk_accepts {dh dl : Byte} (h : HoldsBytes s [dh, dl, crc8 dh dl]) :
    ∃ t, exec (.chk 0) s = .next t ∧ t.matched = true ∧ t.err = ErrorCode.none.code := by
  have hlen : s.rxLen.toNat = 3 := h.length_eq
  have hck : s.rx.read 2 = crc8 (s.rx.read 0) (s.rx.read 1) := by
    rw [h.byte_eq 0 (by simp), h.byte_eq 1 (by simp), h.byte_eq 2 (by simp)]
    rfl
  obtain ⟨t, ht, -, hinside⟩ := exec_chk_outcome 0 s (by omega)
  obtain ⟨hmatched, herr⟩ := hinside hlen.ge
  exact ⟨t, ht, hmatched.trans (beq_iff_eq.mpr hck), herr⟩

/-- After a frame with a parameter, `TX[2..4]` loaded as a response is a group that `CHK 0` accepts (rule R90). -/
theorem exec_chk_accepts_tail {rh rl ph pl : Byte} {n k : Nat} {e : ErrorCode}
    (h : FrameIs t [rh, rl, ph, pl, crc8 ph pl] n k e) (hrx : t.rx.wf = true) :
    ∃ u v, performLoadRx (t.tx.readBytes 2 3) t = .next u ∧ exec (.chk 0) u = .next v ∧ v.matched = true ∧
      v.err = ErrorCode.none.code := by
  have hlen : (t.tx.readBytes 2 3).length ≤ 18 := by simp [Memory.length_readBytes]
  have htail : t.tx.readBytes 2 3 = [ph, pl, crc8 ph pl] := by simp [Memory.readBytes, read_of_frameIs h]
  have hheld : HoldsBytes (loadedState (t.tx.readBytes 2 3) t) [ph, pl, crc8 ph pl] :=
    htail ▸ holdsBytes_loadedState hrx hlen
  obtain ⟨v, hv⟩ := exec_chk_accepts hheld
  exact ⟨_, v, performLoadRx_of_le t _ hlen, hv⟩

end Sys2Proof.Machine

namespace Sys2Proof.Claims

open Sys2Proof.Machine

/-- Settles O18: each command is `emit2` of its register address and its response length. -/
theorem fixedCommandsBuildTheirFrames : Obligations.FixedCommandsBuildTheirFrames :=
  ⟨buildsFixedFrame_of_emit2 0xD100 3 rfl (fun _ => rfl) rfl, buildsFixedFrame_of_emit2 0xD304 0 rfl (fun _ => rfl) rfl,
    buildsFixedFrame_of_emit2 0x4600 3 rfl (fun _ => rfl) rfl, buildsFixedFrame_of_emit2 0x5306 3 rfl (fun _ => rfl) rfl,
    buildsFixedFrame_of_emit2 0x5204 3 rfl (fun _ => rfl) rfl, buildsFixedFrame_of_emit2 0x5403 3 rfl (fun _ => rfl) rfl,
    buildsFixedFrame_of_emit2 0x0202 3 rfl (fun _ => rfl) rfl, buildsFixedFrame_of_emit2 0x0104 0 rfl (fun _ => rfl) rfl,
    buildsFixedFrame_of_emit2 0x0300 18 rfl (fun _ => rfl) rfl⟩

/-- Settles O19: both commands are `emit5` of their register address and `ARG`. -/
theorem parameterCommandsBuildTheirFrames : Obligations.ParameterCommandsBuildTheirFrames := fun p =>
  ⟨rfl, rfl, rfl, buildsParameterFrame_of_emit5 0x5204 p rfl rfl, buildsParameterFrame_of_emit5 0x0010 p rfl rfl⟩

/-- Settles O20: `emit5` of a one-byte parameter inside the range, `refuse` outside it. -/
theorem rangedCommandsBuildOrRefuse : Obligations.RangedCommandsBuildOrRefuse := by
  intro p
  refine ⟨rfl, rfl, fun hpos hle => ?wrint, fun hout => ?wrintRefused, fun hle => ?wrasc, fun hout => ?wrascRefused⟩
  case wrint =>
    have hw : (Instr.wrint p).wellFormed = true := by simp [Instr.wellFormed, hpos, hle]
    exact buildsParameterFrame_of_emit5_of_le 0x4600 hle (execWrint_of_wellFormed hw) rfl
  case wrintRefused => exact refusesOperand_of_refuse (execWrint_of_out_of_range hout) rfl
  case wrasc =>
    have hw : (Instr.wrasc p).wellFormed = true := decide_eq_true hle
    exact buildsParameterFrame_of_emit5_of_le 0x5306 (by omega) (execWrasc_of_wellFormed hw) rfl
  case wrascRefused => exact refusesOperand_of_refuse (execWrasc_of_out_of_range hout) rfl

/-- Settles O22: bytes 2 to 4 of the frame that either command builds, read back and loaded. -/
theorem parameterRoundTripsThroughFrame : Obligations.ParameterRoundTripsThroughFrame := by
  intro p s htx hrx i hi
  obtain ⟨rh, rl, hb, hbuilds⟩ : ∃ rh rl, i.buildsFrame = true ∧
      BuildsParameterFrame i rh rl (hiByte p) (loByte p) := by
    obtain ⟨-, -, -, hwrfrc, hstartc⟩ := parameterCommandsBuildTheirFrames p
    obtain rfl | rfl : i = .startc p ∨ i = .wrfrc p := by simpa using hi
    · exact ⟨_, _, rfl, hstartc⟩
    · exact ⟨_, _, rfl, hwrfrc⟩
  obtain ⟨t, ht, hframe, -⟩ := hbuilds s htx
  obtain ⟨u, v, hload, hchk⟩ := exec_chk_accepts_tail hframe (exec_frame_rx hb ht ▸ hrx)
  have h2 : t.tx.read 2 = hiByte p := read_of_frameIs hframe (by decide)
  have h3 : t.tx.read 3 = loByte p := read_of_frameIs hframe (by decide)
  have h4 : t.tx.read 4 = crc8 (hiByte p) (loByte p) := read_of_frameIs hframe (by decide)
  exact ⟨t, u, v, ht, by rw [h2, h3, hiByte_append_loByte], by rw [h2, h3, h4], hload, hchk⟩

end Sys2Proof.Claims
end

section
/-! PROOFS. The frame decoder (rules R100 to R107): the result of a decode as the claims state it, the views of a passing
and of a failing one, and which responses the checksums reject. -/

namespace Sys2Proof.Machine

open Sys2Proof.Claims

variable {s t : State} {k : Nat}

/-! ## The result of a decode (rule R100) -/

theorem decodeCommit_decodePassed (s : State) (hk : k ≤ 6) : DecodePassed s (decodeCommit k s) k where
  words g := decodedWords_getElem k s g.val g.isLt
  valid := decodeCommit_valid s k
  ngrp := by
    rw [decodeCommit_ngrp, BitVec.toNat_ofNat]
    exact Nat.mod_eq_of_lt (by omega)
  err := decodeCommit_err s k

theorem decodedState_failed_of_length (h : s.rxLen.toNat ≠ 3 * k) : DecodeFailed (decodedState k s) .lengthError :=
  decodedState_of_length s k h ▸ decodeFail_decodeFailed s _

theorem decodedState_failed_of_corrupted (h : s.rxLen.toNat = 3 * k) (hbad : ¬ GroupsIntact s k) :
    DecodeFailed (decodedState k s) .checksumError :=
  decodedState_of_corrupted s k h (mt (groupsIntact_iff s k).mp hbad) ▸ decodeFail_decodeFailed s _

theorem decodedState_passed (hk : k ≤ 6) (h : s.rxLen.toNat = 3 * k) (hgood : GroupsIntact s k) :
    DecodePassed s (decodedState k s) k :=
  decodedState_of_intact s k h ((groupsIntact_iff s k).mpr hgood) ▸ decodeCommit_decodePassed s hk

/-- There are six words to decode into. -/
theorem decoder_groups_le (d : Instr × Nat) (hd : d ∈ decoders) : d.2 ≤ 6 := by
  have := decoders_groups d hd
  omega

/-- Each decode operation is the procedure of rule R100 for its number of groups. -/
theorem decodes_of_mem_decoders (d : Instr × Nat) (hd : d ∈ decoders) : Decodes d.1 d.2 := fun s =>
  ⟨_, exec_decoder s d hd, decodedState_keeps s d.2, decodedState_failed_of_length, decodedState_failed_of_corrupted,
    decodedState_passed (decoder_groups_le d hd)⟩

theorem exec_passes (d : Instr × Nat) (hd : d ∈ decoders) (h : s.rxLen.toNat = 3 * d.2) (hgood : GroupsIntact s d.2) :
    ∃ t, exec d.1 s = .next t ∧ DecodePassed s t d.2 :=
  ⟨_, exec_decoder s d hd, decodedState_passed (decoder_groups_le d hd) h hgood⟩

theorem exec_raises_checksumError (d : Instr × Nat) (hd : d ∈ decoders) (h : s.rxLen.toNat = 3 * d.2)
    (hbad : ¬ GroupsIntact s d.2) : ∃ t, exec d.1 s = .next t ∧ DecodeFailed t .checksumError :=
  ⟨_, exec_decoder s d hd, decodedState_failed_of_corrupted h hbad⟩

/-- `VALID` tells the two outcomes apart (rule R104). -/
theorem not_decodeFailed_of_decodePassed {e : ErrorCode} (h : DecodePassed s t k) : ¬ DecodeFailed t e :=
  fun hfail => Bool.noConfusion (h.valid.symm.trans hfail.valid)

/-! ## Responses that the checksums reject or accept (rules R106, R107) -/

/-- Two bytes of a group fix the third, so a single other byte breaks its group (rule R70). -/
theorem not_bytesIntact_set {bs : List Byte} {j : Nat} {x : Byte} (hgood : BytesIntact bs k)
    (hj : j < 3 * k) (hlen : bs.length = 3 * k) (hx : x ≠ bs.getD j 0) : ¬ BytesIntact (bs.set j x) k := by
  intro haltered
  have hsame : (bs.set j x).getD j 0 = x := by simp [hlen, hj]
  have hother : ∀ a, a ≠ j → (bs.set j x).getD a 0 = bs.getD a 0 := fun a ha => by simp [ha.symm]
  have hold := hgood (j / 3) (by omega)
  have hnew := haltered (j / 3) (by omega)
  obtain hpos | hpos | hpos : 3 * (j / 3) = j ∨ 3 * (j / 3) + 1 = j ∨ 3 * (j / 3) + 2 = j := by omega
  case inl =>
    rw [hother _ (by omega), hother (3 * (j / 3) + 1) (by omega), hold, hpos, hsame] at hnew
    exact hx (crc8_injective_left _ hnew).symm
  case inr.inl =>
    rw [hother _ (by omega), hother (3 * (j / 3)) (by omega), hold, hpos, hsame] at hnew
    exact hx (crc8_injective_right _ hnew).symm
  case inr.inr =>
    rw [hother (3 * (j / 3)) (by omega), hother (3 * (j / 3) + 1) (by omega), ← hold, hpos, hsame] at hnew
    exact hx hnew

/-- The groups in `RX` are intact when those of the bytes held are. -/
theorem HoldsBytes.intact_iff {bs : List Byte} (h : HoldsBytes s bs) (hk : bs.length = 3 * k) :
    GroupsIntact s k ↔ BytesIntact bs k :=
  (Machine.groupsIntact_iff s k).symm.trans (h.groupsIntact_iff k hk)

/-- Three zero bytes are no group (rule R106). -/
theorem crc8_zeros : crc8 0 0 = 0x81 := by decide +kernel

/-- `FF FF AC` is a group (rule R106). -/
theorem crc8_ones : crc8 0xFF 0xFF = 0xAC := by decide +kernel

theorem not_groupsIntact_of_zeros (hk : 0 < k) (hzero : ∀ a < 3 * k, s.rx.read a = 0) : ¬ GroupsIntact s k := by
  intro hgood
  have hfirst := hgood 0 hk
  rw [hzero _ (by omega), hzero _ (by omega), hzero _ (by omega), crc8_zeros] at hfirst
  exact absurd hfirst (by decide)

theorem groupsIntact_of_ones
    (hones : ∀ g < k, s.rx.read (3 * g) = 0xFF ∧ s.rx.read (3 * g + 1) = 0xFF ∧ s.rx.read (3 * g + 2) = 0xAC) :
    GroupsIntact s k := by
  intro g hg
  obtain ⟨hdh, hdl, hck⟩ := hones g hg
  rw [hdh, hdl, hck, crc8_ones]

end Sys2Proof.Machine

namespace Sys2Proof.Claims

open Sys2Proof.Machine

section Views

variable {s t : State} {k : Nat}

/-! ## The views of the result (rules R12, R13) -/

/-- The first word of a passing decode (rule R13). -/
theorem DecodePassed.first_word (h : DecodePassed s t k) (hk : 0 < k) : t.w[0] = s.rx.read 0 ++ s.rx.read 1 :=
  (h.words 0).trans (if_pos hk)

/-- A float view both of whose words were decoded is the pattern received (rule R115). -/
theorem DecodePassed.f_received (h : DecodePassed s t k) (j : Fin 3) (hk : 2 * j.val + 1 < k) :
    t.f j = rxFloatBits s j.val := by
  have hj := j.isLt
  have hhigh := (h.words ⟨2 * j.val, by omega⟩).trans (if_pos (by simp; omega))
  have hlow := (h.words ⟨2 * j.val + 1, by omega⟩).trans (if_pos hk)
  simp only [Fin.getElem_fin, show 3 * (2 * j.val) = 6 * j.val by omega,
    show 3 * (2 * j.val + 1) = 6 * j.val + 3 by omega] at hhigh hlow
  rw [State.f, hhigh, hlow]
  exact append_two_words _ _ _ _

/-- A float view of two words that are zero. -/
theorem f_eq_zero_of_words {j : Fin 3} (hhigh : t.w[2 * j.val] = 0) (hlow : t.w[2 * j.val + 1] = 0) : t.f j = 0 := by
  rw [State.f, hhigh, hlow]
  rfl

/-- A float view beyond the words decoded is zero (rule R104). -/
theorem DecodePassed.f_unused (h : DecodePassed s t k) (j : Fin 3) (hk : k ≤ 2 * j.val) : t.f j = 0 := by
  have hj := j.isLt
  exact f_eq_zero_of_words ((h.words ⟨2 * j.val, by omega⟩).trans (if_neg (by simpa using hk)))
    ((h.words ⟨2 * j.val + 1, by omega⟩).trans (if_neg (by simp; omega)))

/-- A failing decode leaves no float view (rule R104). -/
theorem DecodeFailed.f_zero {e : ErrorCode} (h : DecodeFailed t e) (j : Fin 3) : t.f j = 0 := by
  have hj := j.isLt
  exact f_eq_zero_of_words (h.words ⟨2 * j.val, by omega⟩) (h.words ⟨2 * j.val + 1, by omega⟩)

end Views

/-! ## The obligations -/

/-- Settles O23: `decode(3)`, and the named views as the two bytes of the one word. -/
theorem dec3DecodesOneGroup : Obligations.Dec3DecodesOneGroup := by
  have hd : (Instr.dec3, 1) ∈ decoders := by simp [decoders]
  refine ⟨fun _ => rfl, decodes_of_mem_decoders _ hd, fun s hlen hck => ?_⟩
  have hgood : GroupsIntact s 1 := fun g hg => by
    obtain rfl : g = 0 := by omega
    exact hck
  obtain ⟨t, ht, hpassed⟩ := exec_passes _ hd hlen hgood
  have hword := hpassed.first_word Nat.one_pos
  have hminor : loByte t.w[0] = s.rx.read 1 := by rw [hword, loByte_append]
  refine ⟨t, ht, hword, ?major, hminor, ?ready⟩
  case major => rw [State.major, hword, hiByte_append]
  case ready => rw [State.ready, hminor, beq_iff_eq]

/-- Settles O24: `decode(6)`, with one float view received and two beyond the words decoded. -/
theorem dec6DecodesOneFloatPair : Obligations.Dec6DecodesOneFloatPair := by
  have hd : (Instr.dec6, 2) ∈ decoders := by simp [decoders]
  refine ⟨fun _ => rfl, decodes_of_mem_decoders _ hd, fun s hlen hfirst hsecond => ?_⟩
  have hgood : GroupsIntact s 2 := fun g hg => by
    obtain rfl | rfl : g = 0 ∨ g = 1 := by omega
    · exact hfirst
    · exact hsecond
  obtain ⟨t, ht, hpassed⟩ := exec_passes _ hd hlen hgood
  exact ⟨t, ht, hpassed.valid, hpassed.f_received 0 (by decide), hpassed.f_unused 1 (by decide),
    hpassed.f_unused 2 (by decide)⟩

/-- Settles O25: `decode(18)`, with every float view received. -/
theorem dec18DecodesMeasurement : Obligations.Dec18DecodesMeasurement := by
  have hd : (Instr.dec18, 6) ∈ decoders := by simp [decoders]
  refine ⟨fun _ => rfl, decodes_of_mem_decoders _ hd, fun s hlen hgood => ?_⟩
  obtain ⟨t, ht, hpassed⟩ := exec_passes _ hd hlen hgood
  have hviews : ∀ j : Fin 3, t.f j = rxFloatBits s j.val := fun j => hpassed.f_received j (by simp; omega)
  exact ⟨t, ht, hpassed.valid, hviews, hviews 0, hviews 1, hviews 2⟩

/-- Settles O26: the length and the checksums decide which outcome it is, and `VALID` tells the two apart. -/
theorem decodeIsAllOrNothing : Obligations.DecodeIsAllOrNothing := by
  intro d hd s t ht
  obtain ⟨t', ht', -, hlength, hcorrupted, hintact⟩ := decodes_of_mem_decoders d hd s
  obtain rfl := Host.Outcome.next.inj (ht'.symm.trans ht)
  by_cases hlen : s.rxLen.toNat = 3 * d.2
  · by_cases hgood : GroupsIntact s d.2
    · have hpassed := hintact hlen hgood
      exact .inl ⟨hpassed, hgood, hlen, not_decodeFailed_of_decodePassed hpassed,
        not_decodeFailed_of_decodePassed hpassed⟩
    · have hfailed := hcorrupted hlen hgood
      exact .inr ⟨.inl hfailed, hfailed.f_zero, fun hpassed => not_decodeFailed_of_decodePassed hpassed hfailed⟩
  · have hfailed := hlength hlen
    exact .inr ⟨.inr hfailed, hfailed.f_zero, fun hpassed => not_decodeFailed_of_decodePassed hpassed hfailed⟩

/-- Settles O27: the altered response has the same length and a broken group. -/
theorem singleByteCorruptionIsCaught : Obligations.SingleByteCorruptionIsCaught := by
  intro d hd s bs j x hwf hlen hgood hj hx
  have hlen' : (bs.set j x).length = 3 * d.2 := List.length_set.trans hlen
  have hle := length_le_of_decoder d hd hlen
  have hle' := length_le_of_decoder d hd hlen'
  have hheld := holdsBytes_loadedState hwf hle
  have hheld' := holdsBytes_loadedState hwf hle'
  obtain ⟨t, ht, hpassed⟩ := exec_passes d hd (hheld.length_eq.trans hlen) ((hheld.intact_iff hlen).mpr hgood)
  obtain ⟨t', ht', hfailed⟩ := exec_raises_checksumError d hd (hheld'.length_eq.trans hlen')
    (mt (hheld'.intact_iff hlen').mp (not_bytesIntact_set hgood hj hlen hx))
  exact ⟨⟨_, t, performLoadRx_of_le s bs hle, ht, hpassed⟩, _, t', performLoadRx_of_le s _ hle', ht', hfailed⟩

/-- Settles O28: a first group of zeros is broken, and every group `FF FF AC` is intact. -/
theorem decoderRejectsZerosAcceptsOnes : Obligations.DecoderRejectsZerosAcceptsOnes := by
  intro d hd s hlen
  have hpos : 0 < d.2 := by have := decoders_groups d hd; omega
  exact ⟨fun hzero => exec_raises_checksumError d hd hlen (not_groupsIntact_of_zeros hpos hzero),
    fun hones => exec_passes d hd hlen (groupsIntact_of_ones hones)⟩

end Sys2Proof.Claims
end

section
/-! PROOFS. The float views (rules R115 to R121): patterns pass through a load and a decode unchanged, the value of a pattern
by its fields, and when a view is used as a measurement. -/

namespace Sys2Proof.Machine

open Sys2Proof.Claims

variable {s : State}

/-! ## The bytes of float patterns (rules R31, R46, R115) -/

/-- The four bytes of a pattern, put back together (rule R31). -/
theorem floatBytes_append (v : Float32Bits) :
    v.extractLsb' 24 8 ++ v.extractLsb' 16 8 ++ v.extractLsb' 8 8 ++ v.extractLsb' 0 8 = v := by
  have hhigh : v.extractLsb' 24 8 ++ v.extractLsb' 16 8 = v.extractLsb' 16 16 :=
    BitVec.extractLsb'_append_extractLsb'_eq_extractLsb' rfl
  have hmid : v.extractLsb' 16 16 ++ v.extractLsb' 8 8 = v.extractLsb' 8 24 :=
    BitVec.extractLsb'_append_extractLsb'_eq_extractLsb' rfl
  have hall : v.extractLsb' 8 24 ++ v.extractLsb' 0 8 = v.extractLsb' 0 32 :=
    BitVec.extractLsb'_append_extractLsb'_eq_extractLsb' rfl
  rw [hhigh, hmid, hall, BitVec.extractLsb'_eq_self]

theorem bytesIntact_floatPair (v : Float32Bits) : BytesIntact (floatPair v) 2 := fun g hg => by
  obtain rfl | rfl : g = 0 ∨ g = 1 := by omega
  · rfl
  · rfl

/-- Intact groups after intact groups (rule R32). -/
theorem bytesIntact_append {bs cs : List Byte} {k n : Nat} (hbs : BytesIntact bs k) (hcs : BytesIntact cs n)
    (hlen : bs.length = 3 * k) : BytesIntact (bs ++ cs) (k + n) := by
  intro g hg
  by_cases hk : g < k
  · have hfirst : ∀ a < 3 * k, (bs ++ cs).getD a 0 = bs.getD a 0 := fun a ha =>
      List.getD_append bs cs 0 a (hlen ▸ ha)
    rw [hfirst _ (by omega), hfirst _ (by omega), hfirst _ (by omega)]
    exact hbs g hk
  · obtain ⟨m, rfl⟩ : ∃ m, g = k + m := ⟨g - k, by omega⟩
    have hsecond : ∀ a b, a = 3 * k + b → (bs ++ cs).getD a 0 = cs.getD b 0 := fun a b hab => by
      rw [List.getD_append_right bs cs 0 a (by omega), hlen, hab, Nat.add_sub_cancel_left]
    rw [hsecond (3 * (k + m) + 2) (3 * m + 2) (by omega), hsecond (3 * (k + m)) (3 * m) (by omega),
      hsecond (3 * (k + m) + 1) (3 * m + 1) (by omega)]
    exact hcs m (by omega)

/-- The decode of intact bytes just loaded passes, and each float view it fills is four of those bytes (rules R37, R115). -/
theorem load_decode_delivers_floats (d : Instr × Nat) (hd : d ∈ decoders) (bs : List Byte) (hwf : s.rx.wf = true)
    (hlen : bs.length = 3 * d.2) (hgood : BytesIntact bs d.2) :
    ∃ u t, performLoadRx bs s = .next u ∧ exec d.1 u = .next t ∧ t.valid = true ∧
      ∀ j : Fin 3, 2 * j.val + 1 < d.2 → t.f j = bs.getD (6 * j.val) 0 ++ bs.getD (6 * j.val + 1) 0 ++
        bs.getD (6 * j.val + 3) 0 ++ bs.getD (6 * j.val + 4) 0 := by
  have hle := length_le_of_decoder d hd hlen
  have hheld := holdsBytes_loadedState hwf hle
  obtain ⟨t, ht, hpassed⟩ := exec_passes d hd (hheld.length_eq.trans hlen) ((hheld.intact_iff hlen).mpr hgood)
  refine ⟨_, t, performLoadRx_of_le s bs hle, ht, hpassed.valid, fun j hj => ?_⟩
  rw [hpassed.f_received j hj, rxFloatBits, hheld.byte_eq _ (by omega), hheld.byte_eq _ (by omega),
    hheld.byte_eq _ (by omega), hheld.byte_eq _ (by omega)]

/-! ## The value of a pattern (rule R116) -/

@[simp] theorem FloatValue.toRat_finite (neg : Bool) (m : Nat) (e : Int) :
    (FloatValue.finite neg m e).toRat = some ((if neg then -1 else 1) * (m : Rat) * (2 : Rat) ^ e) := rfl

/-- A significand counts units of `2^-23`. -/
theorem significand_mul_two_zpow (m : Rat) (e : Int) : m * (2 : Rat) ^ e = (2 : Rat) ^ (e + 23) * (m / 2 ^ 23) := by
  have hsplit : (2 : Rat) ^ (e + 23) = (2 : Rat) ^ e * 2 ^ 23 := zpow_add₀ two_ne_zero e 23
  rw [hsplit]
  field_simp

theorem toRat_readFloat_normal (v : Float32Bits) (h0 : (floatExponent v).toNat ≠ 0)
    (h255 : (floatExponent v).toNat ≠ 255) : (readFloat v).toRat =
      some ((if floatSign v then -1 else 1) * (2 : Rat) ^ (((floatExponent v).toNat : Int) - 127) *
        (1 + ((floatFraction v).toNat : Rat) / 2 ^ 23)) := by
  have hexp : ((floatExponent v).toNat : Int) - 150 + 23 = (floatExponent v).toNat - 127 := by omega
  have hone : ((2 ^ 23 + (floatFraction v).toNat : Nat) : Rat) / 2 ^ 23 =
      1 + ((floatFraction v).toNat : Rat) / 2 ^ 23 := by
    push_cast
    ring
  rw [readFloat_normal v h0 h255, FloatValue.toRat_finite, mul_assoc, significand_mul_two_zpow, hexp, hone, mul_assoc]

theorem toRat_readFloat_subnormal (v : Float32Bits) (h0 : (floatExponent v).toNat = 0) : (readFloat v).toRat =
    some ((if floatSign v then -1 else 1) * (2 : Rat) ^ (-126 : Int) * (((floatFraction v).toNat : Rat) / 2 ^ 23)) := by
  rw [readFloat_subnormal v h0, FloatValue.toRat_finite, mul_assoc, significand_mul_two_zpow, mul_assoc]
  rfl

/-- A zero keeps its sign. -/
theorem readFloat_zero (v : Float32Bits) (h0 : (floatExponent v).toNat = 0) (hf : (floatFraction v).toNat = 0) :
    readFloat v = .finite (floatSign v) 0 (-149) := by
  rw [readFloat_subnormal v h0, hf]

/-- The quiet bit of a NaN is the leading bit of the fraction. -/
theorem floatFraction_quiet (v : Float32Bits) : (floatFraction v).getLsbD 22 = v.getLsbD 22 := by
  simp [floatFraction]

/-- The payload of a NaN is the rest of the fraction. -/
theorem floatFraction_payload (v : Float32Bits) : (floatFraction v).extractLsb' 0 22 = v.extractLsb' 0 22 := by
  refine BitVec.eq_of_getLsbD_eq fun i hi => ?_
  simp [floatFraction, hi]

/-! ## Using a result (rule R105, rule R121, rule R153 (e)) -/

/-- No view is used that the decode performed left without data (rules R13, R121). -/
theorem consumeFault_of_not_carried (r : HostReg) (q : Instr) (ho : r.output = some .result) (hv : s.valid = true)
    (hno : ¬ r.carried s = true) : consumeFault r q s = some .resultNotCarried := by
  simp [consumeFault, HostReg.emptyFault, ho, hv, hno]

/-- No result is used for another command than the one it answers (rule R153 (e), U6). -/
theorem consumeFault_of_other_command (r : HostReg) (q : Instr) (ho : r.output = some .result) (hv : s.valid = true)
    (hcarried : r.carried s = true) (hu : .result ∉ s.records.unchecked)
    (hother : ¬ (s.records.result = some q ∧ r.answers q = true)) :
    consumeFault r q s = some .resultOfOtherCommand := by
  have hshown : r.emptyFault s = none := (r.emptyFault_of_result ho).mpr ⟨hv, hcarried⟩
  simp only [consumeFault, ho, hshown]
  exact (if_neg hu).trans (if_pos ⟨rfl, hother⟩)

/-- A result that carries data and answers the command is used, once its error was checked (rule R153 (e), (f)). -/
theorem consumeFault_of_answer (r : HostReg) (q : Instr) (ho : r.output = some .result) (hv : s.valid = true)
    (hcarried : r.carried s = true) (hu : .result ∉ s.records.unchecked) (hresult : s.records.result = some q)
    (hanswers : r.answers q = true) : consumeFault r q s = none :=
  (consumeFault_eq_none_iff r q .result ho).mpr
    ⟨(r.emptyFault_of_result ho).mpr ⟨hv, hcarried⟩,
      (Records.useFault_eq_none _ _ _ q).mpr ⟨hu, fun _ => ⟨hresult, hanswers⟩⟩⟩

/-- Using a result changes nothing: its errors are checked by reading `STATUS` (rules R35, R136). -/
theorem step_consume_result (r : HostReg) (q : Instr) (rest : List HostAction) (ho : r.output = some .result)
    (hp : s.program = .consume r q :: rest) (hf : consumeFault r q s = none) : step s = .next (s.setProgram rest) := by
  have hr : r ≠ .status := by
    rintro rfl
    cases ho
  have hlook : s.records.afterLook r = s.records := Records.afterLook_of_ne s.records r hr
  rw [step_of_touchesNothing s rest (.consume r q) rfl hp hf]
  exact congrArg (fun c => Host.Outcome.next ((s.setProgram rest).setRecords c)) hlook

/-- Which float views carry a measurement (rule R121). -/
theorem carried_f_iff (j : Fin 3) (hv : s.valid = true) :
    (HostReg.f j).carried s = true ↔ s.ngrp.toNat = 6 ∨ s.ngrp.toNat = 2 ∧ j = 0 := by
  simp [HostReg.carried, hv]

/-- A float view is an answer to `RDMEAS` alone (rule R118). -/
theorem answers_f_iff (j : Fin 3) (q : Instr) : (HostReg.f j).answers q = true ↔ q = .rdmeas := by
  simp [HostReg.answers]

/-- After `CLR` and the reset input every float view is zero (rules R23, R121). -/
theorem State.cleared_f (s : State) (j : Fin 3) : s.cleared.f j = 0 :=
  f_eq_zero_of_words (Vector.getElem_replicate _) (Vector.getElem_replicate _)

end Sys2Proof.Machine

namespace Sys2Proof.Claims

open Sys2Proof.Machine

/-- Settles O30: the six bytes of each pattern are two intact groups, and the view filled from them is the pattern. -/
theorem floatPatternsAreDeliveredUnchanged : Obligations.FloatPatternsAreDeliveredUnchanged := by
  constructor
  · intro s v hwf
    obtain ⟨u, t, hu, ht, hvalid, hviews⟩ := load_decode_delivers_floats (.dec6, 2) (by simp [decoders]) _ hwf rfl
      (bytesIntact_floatPair v)
    exact ⟨u, t, hu, ht, hvalid, (hviews 0 (by decide)).trans (floatBytes_append v)⟩
  · intro s a b c hwf
    have hgood : BytesIntact (floatPair a ++ floatPair b ++ floatPair c) 6 :=
      bytesIntact_append (bytesIntact_append (bytesIntact_floatPair a) (bytesIntact_floatPair b) rfl)
        (bytesIntact_floatPair c) rfl
    obtain ⟨u, t, hu, ht, hvalid, hviews⟩ := load_decode_delivers_floats (.dec18, 6) (by simp [decoders]) _ hwf rfl hgood
    exact ⟨u, t, hu, ht, hvalid, (hviews 0 (by decide)).trans (floatBytes_append a),
      (hviews 1 (by decide)).trans (floatBytes_append b), (hviews 2 (by decide)).trans (floatBytes_append c)⟩

/-- Settles O31, class by class of the exponent. -/
theorem floatValueFollowsFields : Obligations.FloatValueFollowsFields := by
  intro v
  refine ⟨fun hlow hhigh => ?normal, toRat_readFloat_subnormal v, readFloat_zero v, readFloat_infinity v,
    fun h255 hf => ?nan⟩
  case normal => exact toRat_readFloat_normal v (Nat.ne_of_gt hlow) (Nat.ne_of_lt (Nat.lt_succ_of_le hhigh))
  case nan => rw [readFloat_nan v h255 hf, floatFraction_quiet, floatFraction_payload]; rfl

/-- Settles O46: the checks of a use one after another, and the views of a state whose words are zero. -/
theorem floatViewsCarryMeasurementsOnlyWhenDecoded : Obligations.FloatViewsCarryMeasurementsOnlyWhenDecoded := by
  refine ⟨fun s rest j q hp => ⟨fun hv => ?noResult, fun hv hno => ?notCarried, fun hv hgroups hu => ?checked⟩,
    fun s j => rfl, fun d hd s t ht hv => ?failed, fun s t ht => ?clr, State.cleared_f State.reset,
    readFloat_zero 0 rfl rfl⟩
  case noResult => exact step_of_fault s rest _ _ hp (consumeFault_of_not_valid s (.f j) q rfl hv)
  case notCarried =>
    exact step_of_fault s rest _ _ hp (consumeFault_of_not_carried (.f j) q rfl hv (mt (carried_f_iff j hv).mp hno))
  case checked =>
    have hcarried := (carried_f_iff j hv).mpr hgroups
    constructor
    · rintro hresult rfl
      exact step_consume_result (.f j) .rdmeas rest rfl hp
        (consumeFault_of_answer (.f j) .rdmeas rfl hv hcarried hu hresult ((answers_f_iff j _).mpr rfl))
    · intro hother
      refine step_of_fault s rest _ _ hp (consumeFault_of_other_command (.f j) q rfl hv hcarried hu ?_)
      rintro ⟨hresult, hanswers⟩
      obtain rfl := (answers_f_iff j q).mp hanswers
      exact hother ⟨hresult, rfl⟩
  case failed =>
    obtain ⟨hpassed, -⟩ | ⟨-, hzero, -⟩ := decodeIsAllOrNothing d hd s t ht
    · exact absurd (hpassed.valid.symm.trans hv) Bool.noConfusion
    · exact hzero
  case clr =>
    obtain rfl := Host.Outcome.next.inj ht
    exact State.cleared_f s

end Sys2Proof.Claims
end

section
/-! PROOFS. The system operations (rules R125 and R126): `CLR` leaves the reset state, and an undefined `OPSEL` writes
`STATUS.ERR` and nothing else of the block (assumption 4). -/

namespace Sys2Proof.Machine

open Sys2Proof.Claims

variable (s : State)

/-! ## `CLR` (rule R125) -/

/-- Clearing takes from a state all that Table ST-1 holds, so the reset state is what it leaves (rules R23, R151). -/
theorem sameBlock_cleared_reset : sameBlock s.cleared State.reset := rfl

theorem State.cleared_word (g : Fin 6) : s.cleared.w[g] = 0 := Vector.getElem_replicate g.isLt

/-! ## An undefined `OPSEL` (rule R126) -/

/-- Writing `ERR` alone leaves the buffers, the result and the host's fields. -/
theorem setErr_keeps (e : ErrorCode) : KeepsBuffersAndResult s (s.setErr e) where
  txLen := State.setErr_txLen s e
  expLen := State.setErr_expLen s e
  rxLen := State.setErr_rxLen s e
  words := State.setErr_w s e
  txBytes _ := rfl
  rxBytes _ := rfl
  valid := State.setErr_valid s e
  ngrp := State.setErr_ngrp s e
  reservedBit := State.setErr_reservedBit s e
  program := State.setErr_program s e
  records := State.setErr_records s e

/-- An undefined code takes the action off the list, has the host's records follow, and writes `ERR`, whatever the host
owes (assumptions 4 and 8). -/
theorem step_undefined (rest : List HostAction) (opsel : Byte) (arg : Word) (e : DecodeError)
    (hp : s.program = .issue opsel arg :: rest) (hd : decodeIssue opsel arg = .error e) :
    step s = .next (((s.setProgram rest).setRecords s.records.afterUndefined).setErr .illegalOperation) := by
  rw [step_eq_next s rest _ _ hp (contractFault_undefined s opsel arg e hd)
    (performAction_undefined _ opsel arg e hd), State.recorded, Records.after_undefined _ _ opsel arg e hd]
  rfl

end Sys2Proof.Machine

namespace Sys2Proof.Claims

open Sys2Proof.Machine

/-- Settles O2: `CLR` leaves the cleared state, which is the reset state but for the host's two fields. -/
theorem clrRestoresResetState : Obligations.ClrRestoresResetState := by
  obtain ⟨htabulated, -⟩ := opselCodesDecodeAsTabulated
  refine ⟨fun arg => (htabulated arg).1, fun s => ⟨s.cleared, rfl, ?_⟩⟩
  exact ⟨s.cleared_status, s.cleared_crc, s.cleared_txLen, s.cleared_expLen, s.cleared_rxLen, s.cleared_word,
    fun _ => rfl, fun _ => rfl, s.cleared_program, s.cleared_records, sameBlock_cleared_reset s⟩

/-- Settles O5: a code in the gaps of Table E-4 decodes to no operation, and `ERR` is all that the step then writes. -/
theorem undefinedOpselOnlyRaises : Obligations.UndefinedOpselOnlyRaises := by
  intro s opsel arg rest hp hgap
  obtain ⟨-, hundefined⟩ := opselCodesDecodeAsTabulated
  exact ⟨_, step_undefined s rest opsel arg _ hp (hundefined opsel arg hgap), State.setErr_err _ _, rfl,
    State.setErr_matched _ _, rfl, setErr_keeps _ _⟩

end Sys2Proof.Claims
end

section
/-! PROOFS. The errors and the availability of the operations (rules R142, R143): the error code that each class of
operations leaves, with well-formedness as what decides it for an encode operation. -/

namespace Sys2Proof.Machine

open Sys2Proof.Claims

variable {s t : State} {i : Instr}

/-- The only operands out of range are those of `WRINT` and `WRASC`, and both are refused (rule R91). -/
theorem exec_eq_refuse_of_not_wellFormed (hw : ¬ i.wellFormed = true) :
    exec i = refuse ∧ ((∃ p, i = .wrint p) ∨ ∃ p, i = .wrasc p) := by
  cases i with
  | wrint p =>
    simp only [Instr.wellFormed, Bool.and_eq_true, decide_eq_true_eq] at hw
    exact ⟨execWrint_of_out_of_range (by omega), .inl ⟨p, rfl⟩⟩
  | wrasc p =>
    simp only [Instr.wellFormed, decide_eq_true_eq] at hw
    exact ⟨execWrasc_of_out_of_range (by omega), .inr ⟨p, rfl⟩⟩
  | _ => exact absurd rfl hw

/-- `ERR` after an encode operation: 0 when its operand is in range, `IllegalOperation` when it is refused. -/
theorem exec_frame_err (hb : i.buildsFrame = true) (h : exec i s = .next t) : t.err = ErrorCode.none.code ∨
    t.err = ErrorCode.illegalOperation.code ∧ ((∃ p, i = .wrint p) ∨ ∃ p, i = .wrasc p) := by
  by_cases hw : i.wellFormed = true
  · obtain ⟨bytes, n, k, hbuilt⟩ := exec_buildsWireFrame hb hw
    obtain rfl := Host.Outcome.next.inj ((hbuilt.exec_eq s).symm.trans h)
    exact .inl (State.setErr_err _ _)
  · obtain ⟨hop, hoperand⟩ := exec_eq_refuse_of_not_wellFormed hw
    obtain rfl := Host.Outcome.next.inj ((refuse_eq_next s).symm.trans (hop ▸ h))
    exact .inr ⟨State.setErr_err _ _, hoperand⟩

/-- `ERR` after a decode: 0, or the error of the test that failed, the length's or a checksum's (rule R100). -/
theorem decodedState_err (k : Nat) : (decodedState k s).err = ErrorCode.none.code ∨
    (decodedState k s).err = ErrorCode.lengthError.code ∨ (decodedState k s).err = ErrorCode.checksumError.code := by
  by_cases hlen : s.rxLen.toNat = 3 * k
  · by_cases hgood : groupsIntact s k = true
    · exact .inl (decodedState_of_intact s k hlen hgood ▸ decodeCommit_err s k)
    · exact .inr (.inr (decodedState_of_corrupted s k hlen hgood ▸ decodeFail_err s _))
  · exact .inr (.inl (decodedState_of_length s k hlen ▸ decodeFail_err s _))

end Sys2Proof.Machine

namespace Sys2Proof.Claims

open Sys2Proof.Machine

/-- Settles O36: `CLR` and `CRC8` leave 0, `CHK` and the decodes raise by their tests, and an encode operation raises only
when its operand is refused. -/
theorem errorsComeFromTheirOperations : Obligations.ErrorsComeFromTheirOperations := by
  intro i s t h
  obtain rfl | ⟨arg, rfl⟩ | ⟨g, rfl⟩ | ⟨d, hd, rfl⟩ | hb := instr_classes i
  case inl =>
    obtain rfl := Host.Outcome.next.inj h
    exact .inl s.cleared_err
  case inr.inl =>
    obtain rfl := Host.Outcome.next.inj h
    exact .inl (State.setErr_err _ _)
  case inr.inr.inl =>
    obtain ⟨-, rfl⟩ | ⟨-, -, rfl⟩ := execChk_cases s t g h
    · exact .inr (.inl ⟨State.setErr_err _ _, .inl ⟨g, rfl⟩⟩)
    · exact .inl (State.setErr_err _ _)
  case inr.inr.inr.inl =>
    obtain rfl := Host.Outcome.next.inj ((exec_decoder s d hd).symm.trans h)
    obtain hnone | hlength | hchecksum := decodedState_err (s := s) d.2
    · exact .inl hnone
    · exact .inr (.inl ⟨hlength, .inr ⟨d, hd, rfl⟩⟩)
    · exact .inr (.inr (.inl ⟨hchecksum, d, hd, rfl⟩))
  case inr.inr.inr.inr => exact (exec_frame_err hb h).imp_right fun hrefused => .inr (.inr hrefused)

/-- Settles O37: only `CHK` reads at an address that `ARG` gives, and a legal `RXLEN` keeps what it reads inside `RX`. -/
theorem everyOperationCompletes : Obligations.EveryOperationCompletes :=
  fun i _ hlegal => exec_completes i hlegal.rxLen_legal

end Sys2Proof.Claims
end

section
/-! PROOFS. The duties of the host (rules R153, R102, R137, R142; assumptions 5, 8 and 13), each as a step that faults or
goes on: overwriting a frame, loading and decoding a reply, using a result, checking its error. Beside them the reset input
(rule R151) and what outlives a session (rule R41). -/

namespace Sys2Proof.Machine

open Sys2Proof.Claims

variable {s t u : State} {c : Records} {i : Instr} {rest : List HostAction}

/-! ## An issued operation that faults, and one that went on -/

/-- A host that called `open` and issues an operation against its duties is stopped (rule R153 (c), (d)). -/
theorem step_issue_of_fault (opsel : Byte) (arg : Word) (f : Fault) (hp : s.program = .issue opsel arg :: rest)
    (hd : decodeIssue opsel arg = .ok i) (hb : s.records.bound = true) (hf : s.records.issueFault i s = some f) :
    step s = .fault f :=
  step_of_fault s rest _ f hp ((contractFault_issue s i opsel arg hb hd).trans hf)

/-- A step by an issued operation that goes on performed it, and the records followed. -/
theorem step_issue_inv (opsel : Byte) (arg : Word) (hp : s.program = .issue opsel arg :: rest)
    (hd : decodeIssue opsel arg = .ok i) (ht : step s = .next t) :
    ∃ u, exec i (s.setProgram rest) = .next u ∧ t = u.setRecords (s.records.afterIssue i u) := by
  obtain ⟨hp', -⟩ | ⟨a, rest', u, hp', -, hu, rfl⟩ := step_inv s t ht
  · cases hp.symm.trans hp'
  · obtain ⟨rfl, rfl⟩ := List.cons.inj (hp.symm.trans hp')
    rw [performAction_issue _ i opsel arg hd] at hu
    exact ⟨u, hu, recorded_issue (s.setProgram rest) i u opsel arg hd hu⟩

/-! ## Overwriting the frame in `TX` (rule R153 (c)) -/

theorem overwritesFrame_iff : overwritesFrame i = true ↔ i.buildsFrame = true ∨ i = .clr := by
  simp [overwritesFrame]

/-- An operation that overwrites the frame decodes nothing, and completes in every state (rule R143). -/
theorem overwriter_completes (ho : overwritesFrame i = true) (s : State) :
    decodeLength i = none ∧ ∃ u, exec i s = .next u := by
  obtain hb | rfl := overwritesFrame_iff.mp ho
  · obtain ⟨bytes, n, k, e, -, hop⟩ := exec_storesFrame i hb
    exact ⟨decodeLength_of_buildsFrame hb, _, hop s⟩
  · exact ⟨rfl, _, rfl⟩

theorem Records.issueFault_of_untaken (ho : overwritesFrame i = true) (hf : c.frame = .untaken) :
    c.issueFault i s = some .frameNotTaken := if_pos ⟨ho, hf⟩

/-- With the frame taken, an operation that decodes nothing breaks no duty. -/
theorem Records.issueFault_of_taken (hi : decodeLength i = none) (hf : c.frame ≠ .untaken) : c.issueFault i s = none :=
  (Records.issueFault_eq_none s c i).mpr ⟨fun h => hf h.2, fun n hn => by cases hi.symm.trans hn⟩

theorem newFrameUse_eq_untaken (u : State) : newFrameUse u = .untaken ↔ u.txLen.toNat ≠ 0 := by
  unfold newFrameUse
  split <;> simp_all

/-- After an encode operation or `CLR` the frame's record is that of what `TX` then holds. -/
theorem Records.afterIssue_frame_of_overwritesFrame (ho : overwritesFrame i = true) (hu : exec i s = .next u) :
    (c.afterIssue i u).frame = newFrameUse u := by
  obtain hb | rfl := overwritesFrame_iff.mp ho
  · exact Records.afterIssue_frame_of_buildsFrame hb
  · obtain rfl := Host.Outcome.next.inj hu
    rfl

/-! ## Loading one reply and decoding it (rule R153 (d), rules R41 and R102) -/

/-- Bytes that are neither those of the last successful read nor six may not be loaded. -/
theorem Records.loadFault_of_other (bs : List Byte) (hreply : c.reply.bytes ≠ some bs) (h6 : bs.length ≠ 6) :
    c.loadFault bs = some .loadNotOneReply :=
  if_neg fun h => ((Reply.mayLoad_iff _ bs).mp h).elim hreply h6

/-- Bytes loaded that the reply covers answer its command. -/
theorem Records.afterLoad_loaded_of_covers (bs : List Byte) (h : c.reply.covers bs = true) :
    (c.afterLoad bs).loaded = c.reply.command := if_pos h

/-- A decode has one duty: bytes of its length stand to be decoded, and no failure rules it out. -/
theorem Records.issueFault_decoder (d : Instr × Nat) (hd : d ∈ decoders) : c.issueFault d.1 s =
    if c.decodable = true ∧ c.forbidsDecode (3 * d.2) s = false ∧ s.rxLen.toNat = 3 * d.2 then none
    else some .decodeOutOfTurn := by
  simp [Records.issueFault, overwritesFrame_decoder d hd, decodeLength_decoder d hd]

/-- The result of a decode answers what the loaded bytes answer. -/
theorem Records.afterIssue_result_of_decoder (d : Instr × Nat) (hd : d ∈ decoders) (u : State) :
    (c.afterIssue d.1 u).result = c.loaded := by
  obtain rfl | rfl | rfl := (mem_decoders_iff d).mp hd <;> rfl

/-! ## Using a result (rule R153 (e)) -/

/-- A result that stands, carries data and was checked is used for the command it answers, and for no other. -/
theorem step_consume_carried (r : HostReg) (q : Instr) (ho : r.output = some .result)
    (hp : s.program = .consume r q :: rest) (hv : s.valid = true) (hcarried : r.carried s = true)
    (hu : .result ∉ s.records.unchecked) :
    (s.records.result = some q ∧ r.answers q = true → step s = .next (s.setProgram rest)) ∧
    (¬ (s.records.result = some q ∧ r.answers q = true) → step s = .fault .resultOfOtherCommand) :=
  ⟨fun ⟨hresult, hanswers⟩ => step_consume_result r q rest ho hp
      (consumeFault_of_answer r q ho hv hcarried hu hresult hanswers),
    fun hother => step_of_fault s rest _ _ hp (consumeFault_of_other_command r q ho hv hcarried hu hother)⟩

/-- A named view of `W[0]` is of the result, carries data after `DEC3` alone, and answers its own command (rule R13). -/
theorem named_view (v : HostReg × Instr) (h : v ∈ [(HostReg.major, Instr.rdfw), (.minor, .rdfw), (.ready, .rdrdy)])
    (hv : s.valid = true) : v.1.output = some .result ∧ (v.1.carried s = true ↔ s.ngrp.toNat = 1) ∧
      ∀ q, v.1.answers q = true ↔ q = v.2 := by
  simp only [List.mem_cons, List.not_mem_nil, or_false] at h
  obtain rfl | rfl | rfl := h <;> simp [HostReg.output, HostReg.carried, HostReg.answers, hv]

/-! ## Building a command again (rule R153 (e)) -/

/-- An encode operation takes from every record the answer to its own command, and from none the bytes. -/
theorem Records.afterIssue_answers_of_buildsFrame (hb : i.buildsFrame = true) (u : State) :
    (c.afterIssue i u).result = stillAnswers i c.result ∧ (c.afterIssue i u).loaded = stillAnswers i c.loaded ∧
    (c.afterIssue i u).reply = c.reply.askedAnew i := by
  rw [Records.afterIssue_eq c i u (ne_clr_of_buildsFrame hb)]
  exact ⟨if_pos (decodeLength_of_buildsFrame hb), rfl, rfl⟩

/-! ## Errors not checked (rule R153 (f), rule R142) -/

theorem sendFault_of_unchecked (hn : s.txLen.toNat ≠ 0) (hc : s.records.connected = true)
    (hu : .frame ∈ s.records.unchecked) : sendFault s = some .errorNotChecked := by
  rw [sendFault, if_neg hn, if_neg (by simp [hc]), if_pos hu]

theorem consumeFault_of_unchecked (r : HostReg) (q : Instr) (o : Output) (ho : r.output = some o)
    (hshown : r.emptyFault s = none) (hu : o ∈ s.records.unchecked) : consumeFault r q s = some .errorNotChecked := by
  simp only [consumeFault, ho, hshown]
  exact if_pos hu

/-- The output of an operation that can raise is the one that the next read of `STATUS` checks (rule R137). -/
theorem Records.afterIssue_unchecked_of_canRaise (hraise : canRaise i = true) (o : Output) (ho : outputOf i = some o)
    (u : State) : o ∈ (c.afterIssue i u).unchecked ∧ (c.afterIssue i u).last = some o := by
  have hclr : i ≠ .clr := by
    rintro rfl
    cases ho
  rw [Records.afterIssue_eq c i u hclr]
  exact ⟨(mem_uncheckedAfter i c.unchecked o).mpr (.inl ⟨ho, hraise⟩), ho⟩

/-! ## The reset input and `CLR` (rule R151) -/

theorem step_reset (hp : s.program = .reset :: rest) :
    step s = .next ((s.setProgram rest).cleared.setRecords s.records.blockCleared) :=
  step_eq_next s rest .reset _ hp rfl rfl

/-- `CLR` that overwrites no frame to be taken, as a step. -/
theorem step_clr (opsel : Byte) (arg : Word) (hp : s.program = .issue opsel arg :: rest)
    (hd : decodeIssue opsel arg = .ok .clr) (hfree : s.records.bound = false ∨ s.records.frame ≠ .untaken) :
    step s = .next ((s.setProgram rest).cleared.setRecords s.records.blockCleared) :=
  step_issue_of_exec opsel arg hp hd (hfree.imp_right (Records.issueFault_of_taken rfl)) rfl

/-- Two states that differ in the host's list alone are one state with any other list. -/
theorem setProgram_congr (h : s.setProgram [] = t.setProgram []) (p : List HostAction) :
    s.setProgram p = t.setProgram p :=
  (congrArg (State.setProgram · p) h :)

theorem records_congr (h : s.setProgram [] = t.setProgram []) : s.records = t.records :=
  (congrArg State.records h :)

/-! ## What outlives a session (rule R41) -/

/-- Closing the session leaves the host bound by rule R153 (c), (d). -/
theorem Records.bound_afterDisconnect (c : Records) : c.afterDisconnect.bound = true := by
  simp [Records.bound, Records.afterDisconnect]

/-- Closing the session and opening another leaves every record but that of a response not yet read (assumption 13). -/
theorem Records.afterConnect_afterDisconnect (hc : c.connected = true) : c.afterDisconnect.afterConnect true =
    { c with frame := if c.frame = .sent then .finished else c.frame } := by
  have hopened : c.transport = .opened := of_decide_eq_true hc
  simp [Records.afterConnect, Records.afterDisconnect, hopened]

end Sys2Proof.Machine

namespace Sys2Proof.Claims

open Sys2Proof.Machine

/-- Settles O47: the frame's record decides, and what the operation leaves in `TX` is its record afterwards. -/
theorem frameIsTakenBeforeItIsOverwritten : Obligations.FrameIsTakenBeforeItIsOverwritten := by
  intro s rest opsel arg i hp hd hb hover
  have ho := overwritesFrame_iff.mpr hover
  refine ⟨fun hf => step_issue_of_fault opsel arg _ hp hd hb (Records.issueFault_of_untaken ho hf), fun hf => ?_⟩
  obtain ⟨hi, u, hu⟩ := overwriter_completes ho (s.setProgram rest)
  refine ⟨u, _, hu, step_issue_of_exec opsel arg hp hd (.inr (Records.issueFault_of_taken hi hf)) hu, ?_⟩
  rw [Records.afterIssue_frame_of_overwritesFrame ho hu]
  exact ⟨newFrameUse_eq_untaken u, newFrameUse_eq_absent u⟩

/-- Settles O48: a load is of the bytes read or of six, and a decode of what was loaded, unless a failure rules it out. -/
theorem oneReplyIsLoadedAndDecoded : Obligations.OneReplyIsLoadedAndDecoded := by
  intro s rest hb
  refine ⟨fun bs hp hlen => ⟨fun hmay => ?loads, fun hreply h6 => ?otherBytes⟩,
    fun d hd opsel arg hp hdec => ⟨fun hbarred => ?outOfTurn, fun hdecodable hlen hread hwrite => ?decodes⟩⟩
  case loads =>
    have hf := (contractFault_loadRx s bs hb hlen).trans ((Records.loadFault_eq_none _ bs).mpr hmay)
    refine ⟨_, _, performLoadRx_of_le _ bs hlen, step_loadRx s rest bs hp hlen hf, (Reply.mayLoad_iff _ bs).mpr hmay,
      fun i hr => ?_, fun got hr hpair => ?_⟩
    · obtain ⟨hbytes, hcommand⟩ := (Reply.eq_received_some i _ bs).mp hr
      exact (Records.afterLoad_loaded_of_covers bs ((Reply.covers_iff _ bs).mpr (.inl hbytes))).trans hcommand
    · obtain ⟨hbytes, hcommand⟩ := (Reply.eq_received_some .rdmeas _ got).mp hr
      exact (Records.afterLoad_loaded_of_covers bs
        ((Reply.covers_iff _ bs).mpr (.inr ⟨got, hbytes, hcommand, hpair⟩))).trans hcommand
  case otherBytes =>
    exact step_of_fault s rest _ _ hp
      ((contractFault_loadRx s bs hb hlen).trans (Records.loadFault_of_other bs hreply h6))
  case outOfTurn =>
    refine step_issue_of_fault opsel arg _ hp hdec hb ((Records.issueFault_decoder d hd).trans (if_neg ?_))
    rintro ⟨hdecodable, hallowed, hlen⟩
    obtain hno | hother | hfailed := hbarred
    · exact Bool.noConfusion (hno.symm.trans hdecodable)
    · exact hother hlen
    · exact Bool.noConfusion (hallowed.symm.trans ((Records.forbidsDecode_iff s _ _).mpr hfailed))
  case decodes =>
    have hallowed : s.records.forbidsDecode (3 * d.2) s = false := by
      rw [← Bool.not_eq_true, Records.forbidsDecode_iff]
      exact fun hfailed => hfailed.elim hread fun ⟨hf, hexp⟩ => hwrite hf hexp
    have hok := Records.issueFault_of_decode d hd hdecodable hallowed hlen
    have hu := exec_decoder (s.setProgram rest) d hd
    exact ⟨_, _, hu, step_issue_of_exec opsel arg hp hdec (.inr hok) hu, Records.afterIssue_result_of_decoder d hd _⟩

/-- Settles O49: a word serves the command that the result answers, a named view only its own after `DEC3`. -/
theorem resultIsUsedForItsCommandOnly : Obligations.ResultIsUsedForItsCommandOnly := by
  intro s rest r q hp hv hu
  refine ⟨fun g hr => ?word, fun v hmem hr => ?view⟩
  case word =>
    subst hr
    obtain ⟨hgoesOn, hfaults⟩ := step_consume_carried (.w g) q rfl hp hv hv hu
    exact ⟨fun hresult => hgoesOn ⟨hresult, rfl⟩, fun hother => hfaults fun h => hother h.1⟩
  case view =>
    subst hr
    obtain ⟨ho, hcarried, hanswers⟩ := named_view v hmem hv
    have huse := fun hn => step_consume_carried v.1 q ho hp hv (hcarried.mpr hn) hu
    rw [hanswers q] at huse
    exact ⟨fun hn => step_of_fault s rest _ _ hp (consumeFault_of_not_carried v.1 q ho hv (mt hcarried.mp hn)),
      fun hn hresult hq => (huse hn).1 ⟨hresult, hq⟩, fun hn => (huse hn).2⟩

/-- Settles O50: an encode operation passes what answers a command through `stillAnswers`, and keeps the bytes. -/
theorem commandBuiltAnewHasNoAnswer : Obligations.CommandBuiltAnewHasNoAnswer := by
  intro s t rest opsel arg i hp hd hbuilds ht
  obtain ⟨u, -, rfl⟩ := step_issue_inv opsel arg hp hd ht
  have hnot : ∀ x, stillAnswers i x ≠ some i := fun x h => ((stillAnswers_eq_some i x i).mp h).2 rfl
  have hstill : ∀ j ≠ i, ∀ x, x = some j → stillAnswers i x = some j := fun j hj x hx =>
    (stillAnswers_eq_some i x j).mpr ⟨hx, hj⟩
  obtain ⟨hresult, hloaded, hreply⟩ := Records.afterIssue_answers_of_buildsFrame (c := s.records) hbuilds u
  rw [State.setRecords_records, hresult, hloaded, hreply, Reply.askedAnew_command]
  exact ⟨hnot _, hnot _, hnot _, fun j hj => ⟨hstill j hj _, hstill j hj _, hstill j hj _⟩,
    Reply.askedAnew_bytes i s.records.reply, Records.afterIssue_decodable (ne_clr_of_buildsFrame hbuilds)⟩

/-- Settles O51: the check of an unchecked output comes before its use, and the read of `STATUS` checks the output that the
operation just left. -/
theorem errorsAreCheckedBeforeUse : Obligations.ErrorsAreCheckedBeforeUse := by
  refine ⟨fun s rest => ⟨fun b hp hc hn hu => ?send, fun r o q hp ho hshown hu => ?use⟩,
    fun s t rest opsel arg i o hp hd hraise ho ht => ?checked⟩
  case send => exact step_of_fault s rest _ _ hp (sendFault_of_unchecked hn hc hu)
  case use => exact step_of_fault s rest _ _ hp (consumeFault_of_unchecked r q o ho hshown hu)
  case checked =>
    obtain ⟨u, hu, rfl⟩ := step_issue_inv opsel arg hp hd ht
    obtain ⟨hunchecked, hlast⟩ := Records.afterIssue_unchecked_of_canRaise (c := s.records) hraise o ho u
    have hread := step_of_touchesNothing (u.setRecords (s.records.afterIssue i u)) rest (.read .status) rfl
      (exec_program _ u i hu) rfl
    refine ⟨hunchecked, _, hread, rfl, fun hmem => ?_⟩
    exact ((Records.mem_unchecked_afterLook_status _ o).mp hmem).2 hlast

/-- Settles O3: both steps clear the block and the host's records, whatever list they stand in. -/
theorem resetInputEqualsClr : Obligations.ResetInputEqualsClr := by
  intro s rest hp
  refine ⟨(s.setProgram rest).cleared, rfl, sameBlock_cleared_reset _, rfl, step_reset hp,
    fun s' arg hsame hp' hfree => ?_⟩
  have hrecords := records_congr hsame
  have hclr := step_clr 0x00 arg hp' ((opselCodesDecodeAsTabulated.1 arg).1) (hrecords ▸ hfree)
  rw [hclr, setProgram_congr hsame rest, hrecords, step_reset hp]

/-- Settles O58: closing and opening write the record of the session, and of a response not yet read. -/
theorem dutiesOutliveTheSession : Obligations.DutiesOutliveTheSession := by
  intro s rest hc
  refine ⟨fun hp => ⟨step_disconnect hp hc, fun t ht => ?bound⟩, fun hp => ?reopened⟩
  case bound =>
    obtain rfl := Host.Outcome.next.inj ((step_disconnect hp hc).symm.trans ht)
    exact s.records.bound_afterDisconnect
  case reopened =>
    have hclosed := step_disconnect hp hc
    have hopened := step_connect (s := (s.setProgram (.connect true :: rest)).setRecords s.records.afterDisconnect)
      true rfl rfl
    rw [State.setRecords_records, Records.afterConnect_afterDisconnect hc] at hopened
    exact (afterSteps_add 1 1 (afterSteps_one hclosed)).trans (afterSteps_one hopened)

end Sys2Proof.Claims
end
